-- ==== Sys2Proof/Word.lean ====
section
/-! DEFINITION. The word types of the AZK-9768 (R4, R10, R22, R28). -/

namespace Sys2Proof

/-- A 32-bit register word (R21, R22). -/
abbrev Word := BitVec 32

/-- A 64-bit value: a register pair, an address, a branch target (R4, R23, R28). -/
abbrev DWord := BitVec 64

/-- A byte of memory (R4). -/
abbrev Byte := BitVec 8

/-- A mask of the 64 lanes of a warp, bit l for lane l (R10). -/
abbrev Lanes := BitVec 64

end Sys2Proof
end

