-- ==== Sys2Proof/Syntax.lean ====
section
/-! DEFINITION. The instructions (R44, R49, R59) and the part's own steps: one constructor per row of the operation table. -/

namespace Sys2Proof

/-- The fields of a vector, memory or engine syllable (R44), but for OP, which the constructor names. -/
structure Syl where
  g1 : BitVec 4
  g2 : BitVec 4
  d : BitVec 8
  a : BitVec 8
  b : BitVec 8
  c : BitVec 8
  e : BitVec 8
  xa : Bool
  xb : Bool
  xc : Bool
  m : BitVec 3
  h : BitVec 2
  deriving DecidableEq, Repr

/-- The fields of a control syllable (R49), but for OP. -/
structure Ctl where
  g1 : BitVec 4
  g2 : BitVec 4
  gap : BitVec 3
  land : Bool
  yield : Bool
  a : BitVec 8
  imm : BitVec 32
  deriving DecidableEq, Repr

/-- What a claim-plane message from another device holds (R315, R394): its sender, the group word, the
proposal number, the key, the value, whether it is a CLREAD, and the place of the warp that issued it. -/
structure Remote where
  device : BitVec 8
  group : BitVec 32
  num : BitVec 32
  key : BitVec 32
  value : BitVec 64
  /-- a CLREAD, not a claim -/
  read : Bool := false
  /-- issuing die, cluster, sub-core and warp slot, as one number that rises in that order (R320) -/
  order : BitVec 15 := 0
  /-- the group has been destroyed, where no proposal is delivered (R312) -/
  gone : Bool := false
  deriving DecidableEq, Repr

/-- One row of the operation table. A syllable's constructor holds its fields; a step of the part holds its subject:
the identity of an operation, a warp slot number (R278), a cluster number 80·die + cluster, a sub-core number
4·cluster + SUB, or what arrives from outside. -/
inductive Instr where
  -- vector slot (R59, R102)
  | vnop (f : Syl)
  | vadd (f : Syl)
  | vsub (f : Syl)
  | vaddc (f : Syl)
  | vmul (f : Syl)
  | vmulh (f : Syl)
  | vmulw (f : Syl)
  | vmad (f : Syl)
  | vmin (f : Syl)
  | vmax (f : Syl)
  | vabsd (f : Syl)
  | vclamp (f : Syl)
  | vand (f : Syl)
  | vor (f : Syl)
  | vxor (f : Syl)
  | vandn (f : Syl)
  | vshl (f : Syl)
  | vshr (f : Syl)
  | vbfe (f : Syl)
  | vbfi (f : Syl)
  | vpopc (f : Syl)
  | vclz (f : Syl)
  | vbrev (f : Syl)
  | vsel (f : Syl)
  | vcmp (f : Syl)
  | vmov (f : Syl)
  | vperm (f : Syl)
  | vreq (f : Syl)
  | vfadd (f : Syl)
  | vfsub (f : Syl)
  | vfmul (f : Syl)
  | vfma (f : Syl)
  | vfmin (f : Syl)
  | vfmax (f : Syl)
  | vfcmp (f : Syl)
  | vfclass (f : Syl)
  | vfrnd (f : Syl)
  | vdadd (f : Syl)
  | vdmul (f : Syl)
  | vdfma (f : Syl)
  | vdmin (f : Syl)
  | vdmax (f : Syl)
  | vdcmp (f : Syl)
  | vhadd2 (f : Syl)
  | vhmul2 (f : Syl)
  | vhfma2 (f : Syl)
  | vbfma2 (f : Syl)
  | vcvt (f : Syl)
  | vpack (f : Syl)
  | vunpk (f : Syl)
  | vrcp (f : Syl)
  | vrsq (f : Syl)
  | vsqrt (f : Syl)
  | vexp2 (f : Syl)
  | vlog2 (f : Syl)
  | vsin (f : Syl)
  | vtanh (f : Syl)
  | vshfl (f : Syl)
  | vred (f : Syl)
  | vscan (f : Syl)
  | vballot (f : Syl)
  | vmatch (f : Syl)
  | vote (f : Syl)
  | vplog (f : Syl)
  | vpmov (f : Syl)
  -- memory slot (R59, R136)
  | mnop (f : Syl)
  | ldg (f : Syl)
  | stg (f : Syl)
  | lds (f : Syl)
  | sts (f : Syl)
  | ldc (f : Syl)
  | ldacq (f : Syl)
  | strel (f : Syl)
  | atom (f : Syl)
  | atoms (f : Syl)
  | red (f : Syl)
  | fence (f : Syl)
  | pref (f : Syl)
  | halloc (f : Syl)
  | hfree (f : Syl)
  | hqry (f : Syl)
  | rfence (f : Syl)
  | qpost (f : Syl)
  | qtake (f : Syl)
  | tlsig (f : Syl)
  | icinv (f : Syl)
  | ldl (f : Syl)
  | stl (f : Syl)
  -- engine slot (R59, R172)
  | enop (f : Syl)
  | cset (f : Syl)
  | cgo (f : Syl)
  | cgath (f : Syl)
  | cscat (f : Syl)
  | cqry (f : Syl)
  | mma (f : Syl)
  | mmas (f : Syl)
  | macq (f : Syl)
  | mrel (f : Syl)
  | mrd (f : Syl)
  | mwr (f : Syl)
  | mzero (f : Syl)
  | tset (f : Syl)
  | trav (f : Syl)
  | tret (f : Syl)
  | dpush (f : Syl)
  | dcut (f : Syl)
  | ddeal (f : Syl)
  | ddepth (f : Syl)
  | claim (f : Syl)
  | object (f : Syl)
  | clread (f : Syl)
  | clpoll (f : Syl)
  | clgrp (f : Syl)
  -- control slot (R59, R202)
  | nop (f : Ctl)
  | prep (f : Ctl)
  | prepi (f : Ctl)
  | bra (f : Ctl)
  | brd (f : Ctl)
  | jset (f : Ctl)
  | join (f : Ctl)
  | call (f : Ctl)
  | ret (f : Ctl)
  | exit (f : Ctl)
  | bar (f : Ctl)
  | bara (f : Ctl)
  | waitf (f : Ctl)
  | yield (f : Ctl)
  | fork (f : Ctl)
  | sync (f : Ctl)
  | launch (f : Ctl)
  | tlwait (f : Ctl)
  | fmts (f : Ctl)
  | grow (f : Ctl)
  | shrink (f : Ctl)
  | enter (f : Ctl)
  | leave (f : Ctl)
  | trap (f : Ctl)
  | rft (f : Ctl)
  | ovtld (f : Ctl)
  | srd (f : Ctl)
  | swr (f : Ctl)
  | sleep (f : Ctl)
  | bkpt (f : Ctl)
  | kend (f : Ctl)
  -- the steps that the part takes by itself, and what reaches it from outside
  | resultDelivery (op : Nat)
  | fenceComplete (op : Nat)
  | pageWalk (op : Nat) (lanes : Lanes)
  | homeAccess (op : Nat) (lanes : Lanes) (answers : List Nat) (writeBack : List Nat)
  | combine (line : Nat)
  | gatheredRedApply (op : Nat) (lanes : Lanes)
  | uCopyEviction (die line : Nat)
  | deferredFaultTrap (warp : Nat)
  | dataWatchMatch (op : Nat)
  | starvationBound (warp : Nat)
  | groupRotation (warp : Nat)
  | timelineCounterUpdate (pa : Nat)
  | tlwaitDeadline (warp group : Nat)
  | sleepWake (warp group : Nat)
  | copyQueueAccept (op : Nat)
  | copyChannelStart (cluster : Nat)
  | copyComplete (op : Nat) (answers : List Nat)
  | matrixOpComplete (op : Nat)
  | tokenRelease (sub tile : Nat)
  | tsetTableLoaded (op : Nat)
  | traversalPop (walk lane : Nat)
  | deckSpill (walk lane : Nat)
  | routineCall (walk : Nat)
  | walkComplete (walk : Nat)
  | handleSpaceReturn (old : Nat)
  | dealerDealTeam (die : Nat)
  | dealerSteal (die : Nat)
  | kittySteal (cluster : Nat)
  | taskStart (cluster : Nat)
  | warpSlotRelease (warp : Nat)
  | teamComplete (team : Nat)
  | stageSlotRestart (team slot : Nat)
  | calendarTurn
  | bucketRefill
  | permitRefill (cluster : Nat)
  | droopStretch (cluster : Nat)
  | fllStepDown (cluster : Nat)
  | frequencyChange (cluster code : Nat)
  | retentionEntry (cluster : Nat)
  | retentionExit (cluster : Nat) (parityOk testOk : Bool)
  | uncorrectedError (kind place : Nat) (lanes : Lanes)
  | selfTest (kind place : Nat) (pass : Bool)
  | claimArrival (msg : Nat) (remote : Option Remote)
  | inboxDelivery (msg : Nat) (remote : Option Remote)
  | objectionArrival (msg : Nat) (remote : Option Remote) (answer : Nat)
  | claimWindowEnd (proposal : Nat)
  | claimOutcome (msg answer : Nat)
  | claimPlaneUnreachable (device : Nat)
  | postedWriteSend (write : Nat)
  | postedWriteReport (write : Nat) (refused : Bool)
  | postedWriteLost (write : Nat)
  | inboundPostedWrite (tag pa : Nat) (bytes : List (Option Byte))
  | inboundRead (tag pa size : Nat)
  | hostWrite (pa : Nat) (bytes : List Byte)
  | hostRead (tag pa size : Nat)
  | doorbellWrite (value : Word)
  | recoveryGo
  | boot
  | tlbinvWrite (warp : Nat) (value : DWord)
  | pctlSave (warp : Nat) (value : DWord)
  | preemptSaveComplete (team : Nat)
  | pctlRestore (warp : Nat) (value : DWord)
  | hvcommitGo
  | flushpaWrite (value : DWord)
  | checkpointSave
  | checkpointRestore
  | checkpointComplete (errors : Nat)
  | attestExtend (value : DWord)
  | attestQuote (value : DWord)
  | sketchEventWrite (cluster which : Nat) (value : DWord)
  | sketchDump (warp : Nat) (value : DWord)
  | histogramClear (sub : Nat)
  | claimGroupDestroy (part group : Nat)
  | pmodeWrite (value : DWord)
  | sessionRemap (warp : Nat) (value : DWord)
  | planeReachable (device : Nat)
  | inboundAtomic (tag pa op size data cmp : Nat)
  deriving DecidableEq, Repr

/-- The four slots of a bundle (R41). -/
inductive Slot where
  | vector
  | memory
  | engine
  | control
  deriving DecidableEq, Repr

/-- A bundle: one instruction of each slot (R42). -/
structure Bundle where
  v : Instr
  m : Instr
  e : Instr
  c : Instr
  deriving DecidableEq, Repr

end Sys2Proof
end

