-- ==== Sys2Proof/Machine/Shape.lean ====
section
/-! DEFINITION. What each instruction does with the fields of its syllable (R47, R54, R98, R102, R130, R167, R198,
R202), and the issue checks that the fields alone decide (R55). -/

namespace Sys2Proof

/-- The opcode and the fields of an instruction; a step of the part has none. -/
inductive View where
  | syl (slot : Slot) (op : Nat) (f : Syl)
  | ctl (op : Nat) (f : Ctl)
  | event

/-- The opcode map read from the instruction (R59). -/
def view : Instr → View
  | .vnop f => .syl .vector 0x00 f
  | .vadd f => .syl .vector 0x01 f
  | .vsub f => .syl .vector 0x02 f
  | .vaddc f => .syl .vector 0x03 f
  | .vmul f => .syl .vector 0x04 f
  | .vmulh f => .syl .vector 0x05 f
  | .vmulw f => .syl .vector 0x06 f
  | .vmad f => .syl .vector 0x07 f
  | .vmin f => .syl .vector 0x08 f
  | .vmax f => .syl .vector 0x09 f
  | .vabsd f => .syl .vector 0x0A f
  | .vand f => .syl .vector 0x0B f
  | .vor f => .syl .vector 0x0C f
  | .vxor f => .syl .vector 0x0D f
  | .vandn f => .syl .vector 0x0E f
  | .vshl f => .syl .vector 0x0F f
  | .vshr f => .syl .vector 0x10 f
  | .vbfe f => .syl .vector 0x11 f
  | .vbfi f => .syl .vector 0x12 f
  | .vpopc f => .syl .vector 0x13 f
  | .vclz f => .syl .vector 0x14 f
  | .vbrev f => .syl .vector 0x15 f
  | .vsel f => .syl .vector 0x16 f
  | .vcmp f => .syl .vector 0x17 f
  | .vmov f => .syl .vector 0x18 f
  | .vclamp f => .syl .vector 0x19 f
  | .vperm f => .syl .vector 0x1A f
  | .vreq f => .syl .vector 0x1B f
  | .vfadd f => .syl .vector 0x20 f
  | .vfsub f => .syl .vector 0x21 f
  | .vfmul f => .syl .vector 0x22 f
  | .vfma f => .syl .vector 0x23 f
  | .vfmin f => .syl .vector 0x24 f
  | .vfmax f => .syl .vector 0x25 f
  | .vfcmp f => .syl .vector 0x26 f
  | .vfclass f => .syl .vector 0x27 f
  | .vfrnd f => .syl .vector 0x28 f
  | .vdadd f => .syl .vector 0x30 f
  | .vdmul f => .syl .vector 0x31 f
  | .vdfma f => .syl .vector 0x32 f
  | .vdmin f => .syl .vector 0x33 f
  | .vdmax f => .syl .vector 0x34 f
  | .vdcmp f => .syl .vector 0x35 f
  | .vhadd2 f => .syl .vector 0x38 f
  | .vhmul2 f => .syl .vector 0x39 f
  | .vhfma2 f => .syl .vector 0x3A f
  | .vbfma2 f => .syl .vector 0x3B f
  | .vcvt f => .syl .vector 0x40 f
  | .vpack f => .syl .vector 0x41 f
  | .vunpk f => .syl .vector 0x42 f
  | .vrcp f => .syl .vector 0x48 f
  | .vrsq f => .syl .vector 0x49 f
  | .vsqrt f => .syl .vector 0x4A f
  | .vexp2 f => .syl .vector 0x4B f
  | .vlog2 f => .syl .vector 0x4C f
  | .vsin f => .syl .vector 0x4D f
  | .vtanh f => .syl .vector 0x4E f
  | .vshfl f => .syl .vector 0x50 f
  | .vred f => .syl .vector 0x51 f
  | .vscan f => .syl .vector 0x52 f
  | .vballot f => .syl .vector 0x53 f
  | .vmatch f => .syl .vector 0x54 f
  | .vote f => .syl .vector 0x55 f
  | .vplog f => .syl .vector 0x56 f
  | .vpmov f => .syl .vector 0x57 f
  | .mnop f => .syl .memory 0x00 f
  | .ldg f => .syl .memory 0x01 f
  | .stg f => .syl .memory 0x02 f
  | .lds f => .syl .memory 0x03 f
  | .sts f => .syl .memory 0x04 f
  | .ldc f => .syl .memory 0x05 f
  | .ldacq f => .syl .memory 0x06 f
  | .strel f => .syl .memory 0x07 f
  | .atom f => .syl .memory 0x08 f
  | .atoms f => .syl .memory 0x09 f
  | .red f => .syl .memory 0x0A f
  | .fence f => .syl .memory 0x0B f
  | .pref f => .syl .memory 0x0C f
  | .halloc f => .syl .memory 0x0D f
  | .hfree f => .syl .memory 0x0E f
  | .hqry f => .syl .memory 0x0F f
  | .rfence f => .syl .memory 0x10 f
  | .qpost f => .syl .memory 0x11 f
  | .qtake f => .syl .memory 0x12 f
  | .tlsig f => .syl .memory 0x13 f
  | .icinv f => .syl .memory 0x14 f
  | .ldl f => .syl .memory 0x15 f
  | .stl f => .syl .memory 0x16 f
  | .enop f => .syl .engine 0x00 f
  | .cset f => .syl .engine 0x01 f
  | .cgo f => .syl .engine 0x02 f
  | .cgath f => .syl .engine 0x03 f
  | .cscat f => .syl .engine 0x04 f
  | .cqry f => .syl .engine 0x05 f
  | .mma f => .syl .engine 0x10 f
  | .mmas f => .syl .engine 0x11 f
  | .macq f => .syl .engine 0x12 f
  | .mrel f => .syl .engine 0x13 f
  | .mrd f => .syl .engine 0x14 f
  | .mwr f => .syl .engine 0x15 f
  | .mzero f => .syl .engine 0x16 f
  | .tset f => .syl .engine 0x20 f
  | .trav f => .syl .engine 0x21 f
  | .tret f => .syl .engine 0x22 f
  | .dpush f => .syl .engine 0x23 f
  | .dcut f => .syl .engine 0x24 f
  | .ddeal f => .syl .engine 0x25 f
  | .ddepth f => .syl .engine 0x26 f
  | .claim f => .syl .engine 0x30 f
  | .object f => .syl .engine 0x31 f
  | .clread f => .syl .engine 0x32 f
  | .clpoll f => .syl .engine 0x33 f
  | .clgrp f => .syl .engine 0x34 f
  | .nop f => .ctl 0x00 f
  | .prep f => .ctl 0x01 f
  | .prepi f => .ctl 0x02 f
  | .bra f => .ctl 0x03 f
  | .brd f => .ctl 0x04 f
  | .jset f => .ctl 0x05 f
  | .join f => .ctl 0x06 f
  | .call f => .ctl 0x07 f
  | .ret f => .ctl 0x08 f
  | .exit f => .ctl 0x09 f
  | .bar f => .ctl 0x0A f
  | .bara f => .ctl 0x0B f
  | .waitf f => .ctl 0x0C f
  | .yield f => .ctl 0x0D f
  | .fork f => .ctl 0x0E f
  | .sync f => .ctl 0x0F f
  | .launch f => .ctl 0x10 f
  | .tlwait f => .ctl 0x11 f
  | .fmts f => .ctl 0x12 f
  | .grow f => .ctl 0x13 f
  | .shrink f => .ctl 0x14 f
  | .enter f => .ctl 0x15 f
  | .leave f => .ctl 0x16 f
  | .trap f => .ctl 0x17 f
  | .rft f => .ctl 0x18 f
  | .ovtld f => .ctl 0x19 f
  | .srd f => .ctl 0x1A f
  | .swr f => .ctl 0x1B f
  | .sleep f => .ctl 0x1C f
  | .bkpt f => .ctl 0x1D f
  | .kend f => .ctl 0x1E f
  | _ => .event

/-! ### Operand codes (R54) -/

def isV (c : Nat) : Bool := decide (c < 192)
def isS (c : Nat) : Bool := decide (192 ≤ c) && decide (c < 240)
def isReg (c : Nat) : Bool := decide (c < 240)
/-- A destination that is not writable: kind 3 of R34. -/
def notWritable (c : Nat) : Bool :=
  (decide (240 ≤ c) && decide (c < 244)) || (decide (245 ≤ c) && decide (c < 250))

def codeZero : Nat := 244
def codeLane : Nat := 245
def codeWid : Nat := 246
def codeTid : Nat := 247
def codeImm : Nat := 248
def codeE8 : Nat := 249

/-- What a source field accepts besides S registers, `%zero`, `%imm`, `%e8` and, in a 32-bit source, `%wid` and
`%tid`. -/
inductive Accept where
  /-- V registers, `%lane`, latches (R94) -/
  | any
  /-- V registers and `%lane`, no latch (R169) -/
  | perLane
  /-- nothing more (R132, R169) -/
  | uniform
  /-- V registers only (R183) -/
  | vOnly
  /-- V or S registers only (R187) -/
  | regs
  deriving DecidableEq, Repr

/-- The use of one operand field; `w` is the number of registers it names. -/
inductive Field where
  | unused
  /-- destination: takes V, S, `%zero` as the flags say -/
  | dst (w : Nat) (v s z : Bool)
  | src (w : Nat) (acc : Accept)
  | pred
  /-- a number below n -/
  | raw (n : Nat)
  deriving DecidableEq, Repr

/-- The use of E (R47, R96, R168). -/
inductive EUse where
  | imm
  | zero
  | modifier (ok : Bool)
  deriving DecidableEq, Repr

/-- When an S destination is accepted (R98, R132). -/
inductive SDest where
  | never
  | whenScalar
  | always
  deriving DecidableEq, Repr

structure Shape where
  d : Field
  a : Field
  b : Field
  c : Field
  e : EUse
  mOk : Bool
  /-- the greatest hint accepted -/
  hMax : Nat
  sdest : SDest
  deriving DecidableEq, Repr

/-- Registers of a memory access by M (R133). -/
def sizeWords (m : Nat) : Nat := if m = 5 then 2 else if m = 6 then 4 else 1

def loadSizeOk (m : Nat) : Bool := decide (m ≤ 6)
def storeSizeOk (m : Nat) : Bool := m == 0 || m == 2 || m == 4 || m == 5 || m == 6
def spillSizeOk (m : Nat) : Bool := decide (4 ≤ m) && decide (m ≤ 6)
def scopeOk (e : Nat) : Bool := decide (e ≤ 4)
/-- Operation and scope of ATOM (R149). -/
def atomEOk (e : Nat) : Bool := decide (e % 16 ≤ 10) && decide (e / 16 ≤ 4)
def redEOk (e : Nat) : Bool := atomEOk e && !(e % 16 == 8 || e % 16 == 9)
/-- Registers that C of an atomic names (R149). -/
def atomDataWords (op : Nat) (wide : Bool) : Nat :=
  (if op = 9 then 2 else 1) * (if wide then 2 else 1)
def flagEOk (e : Nat) : Bool := decide (e < 8)

def Syl.op64 (f : Syl) : Bool := f.m.getLsbD 0
/-- Type field of VRED and VSCAN (R122). -/
def Syl.redWords (f : Syl) : Nat := if f.e.toNat % 4 = 3 then 2 else 1


/-- An S source or V source of 32 or 64 bits. -/
def Field.s1 : Field := .src 1 .any
def Field.s2 : Field := .src 2 .any

/-- A vector shape of n sources of w registers with destination of dw registers and a scalar form. -/
def vecShape (n dw w : Nat) (mOk : Bool) : Shape :=
  { d := .dst dw true true true, a := .src w .any, b := if 2 ≤ n then .src w .any else .unused,
    c := if 3 ≤ n then .src w .any else .unused, e := .imm, mOk := mOk, hMax := 0, sdest := .whenScalar }

/-- The shape of every syllable of the vector, memory and engine slots but the NOPs. VRED and VBALLOT take `%zero` as D
(log 72, DEDUCED); TRAV's spill base takes constants as well as a pair (log 81, DEDUCED). -/
def shape : Instr → Option Shape
  -- vector slot (R102)
  | .vadd f | .vsub f | .vmul f | .vand f | .vor f | .vxor f | .vandn f | .vshl f
  | .vfadd f | .vfsub f | .vfmul f | .vfmin f | .vfmax f | .vhmul2 f => some (vecShape 2 1 1 (f.m == 0))
  | .vmulh f | .vmin f | .vmax f | .vabsd f | .vshr f | .vbfe f | .vhadd2 f =>
    some (vecShape 2 1 1 (f.m.toNat < 2))
  | .vmulw f => some (vecShape 2 2 1 (f.m.toNat < 2))
  | .vaddc f => some { vecShape 2 1 1 (f.m == 0) with c := .pred }
  | .vmad f | .vbfi f | .vperm f | .vfma f | .vhfma2 f | .vbfma2 f => some (vecShape 3 1 1 (f.m == 0))
  | .vclamp f => some (vecShape 3 1 1 (f.m.toNat < 2))
  | .vpopc f | .vclz f | .vbrev f | .vfclass f | .vcvt f | .vrcp f | .vrsq f | .vsqrt f | .vexp2 f | .vlog2 f
  | .vtanh f => some (vecShape 1 1 1 (f.m == 0))
  | .vsin f => some (vecShape 1 1 1 (f.m.toNat < 2))
  | .vfrnd f => some (vecShape 1 1 1 (f.m.toNat < 6))
  | .vsel f => some { vecShape 2 1 1 (f.m == 0) with c := .pred, sdest := .never }
  | .vcmp f => some { vecShape 2 1 1 (f.m.toNat < 6) with d := .pred, e := .modifier (f.e.toNat < 2) }
  | .vmov f =>
    if f.op64 then some (vecShape 1 2 2 (f.m.toNat < 2)) else some (vecShape 1 1 1 (f.m.toNat < 2))
  | .vreq f => some { vecShape 3 1 1 (f.m.toNat < 2) with e := .modifier (f.e.toNat < 32) }
  | .vfcmp _ => some { vecShape 2 1 1 true with d := .pred, e := .zero }
  | .vdadd f => some (vecShape 2 2 2 (f.m.toNat < 2))
  | .vdmul f | .vdmin f | .vdmax f => some (vecShape 2 2 2 (f.m == 0))
  | .vdfma f => some (vecShape 3 2 2 (f.m == 0))
  | .vdcmp _ => some { vecShape 2 1 2 true with d := .pred, e := .zero }
  | .vpack f =>
    some { vecShape 2 1 1 (!f.op64 && f.m.toNat < 6) with
           e := .modifier (f.e.toNat < 2 * 2 ^ (f.m.toNat / 2) && f.m.toNat < 6) }
  | .vunpk f =>
    some { vecShape 1 1 1 (f.m.toNat < 6) with
           e := .modifier (f.e.toNat < 2 * 2 ^ (f.m.toNat / 2) && f.m.toNat < 6) }
  | .vshfl f => some { vecShape 2 1 1 (f.m.toNat < 4) with d := .dst 1 true false false, sdest := .never }
  | .vred f =>
    some { vecShape 1 f.redWords f.redWords (f.m.toNat < 6) with
           e := .modifier (f.e.toNat < 4 && (f.m.toNat < 3 || f.e.toNat % 4 < 2)), sdest := .always }
  | .vscan f =>
    some { vecShape 1 f.redWords f.redWords (f.m.toNat < 6) with
           d := .dst f.redWords true false false,
           e := .modifier (f.e.toNat < 8 && (f.m.toNat < 3 || f.e.toNat % 4 < 2)), sdest := .never }
  | .vballot f => some { vecShape 1 2 1 (f.m == 0) with a := .pred, e := .zero, sdest := .always }
  | .vmatch f =>
    some { vecShape 1 2 (if f.op64 then 2 else 1) (f.m.toNat < 2) with d := .dst 2 true false false, sdest := .never }
  | .vote f =>
    some { vecShape 1 1 1 (f.m.toNat < 7) with
           d := .pred, a := .pred, e := .modifier (if f.m.toNat < 2 then f.e.toNat ≤ 64 else f.e == 0) }
  | .vplog f =>
    some { vecShape 3 1 1 (f.m == 0) with d := .pred, a := .pred, b := .pred, c := .pred, e := .modifier true }
  | .vpmov f =>
    if f.op64 then some { vecShape 1 1 1 (f.m.toNat < 2) with d := .unused, e := .zero }
    else some { vecShape 1 1 1 (f.m.toNat < 2) with d := .dst 1 true false false, a := .unused, e := .zero,
                                                    sdest := .never }
  -- memory slot (R130, R133 to R136, R149)
  | .ldg f => some { d := .dst (sizeWords f.m.toNat) true true true, a := .s2, b := .s1, c := .unused, e := .imm,
                     mOk := loadSizeOk f.m.toNat, hMax := 3, sdest := .whenScalar }
  | .stg f => some { d := .unused, a := .s2, b := .s1, c := .src (sizeWords f.m.toNat) .any, e := .imm,
                     mOk := storeSizeOk f.m.toNat, hMax := 2, sdest := .whenScalar }
  | .lds f => some { d := .dst (sizeWords f.m.toNat) true true true, a := .raw 64, b := .s1, c := .unused,
                     e := .imm, mOk := loadSizeOk f.m.toNat, hMax := 0, sdest := .whenScalar }
  | .sts f => some { d := .unused, a := .raw 64, b := .s1, c := .src (sizeWords f.m.toNat) .any, e := .imm,
                     mOk := storeSizeOk f.m.toNat, hMax := 0, sdest := .whenScalar }
  | .ldc f => some { d := .dst (sizeWords f.m.toNat) true true true, a := .s2, b := .s1, c := .unused, e := .imm,
                     mOk := loadSizeOk f.m.toNat, hMax := 0, sdest := .whenScalar }
  | .ldacq f => some { d := .dst (if f.op64 then 2 else 1) true true true, a := .s2, b := .s1, c := .unused,
                       e := .modifier (scopeOk f.e.toNat), mOk := f.m.toNat < 2, hMax := 0, sdest := .whenScalar }
  | .strel f => some { d := .unused, a := .s2, b := .s1, c := .src (if f.op64 then 2 else 1) .any,
                       e := .modifier (scopeOk f.e.toNat), mOk := f.m.toNat < 2, hMax := 0, sdest := .whenScalar }
  | .atom f => some { d := .dst (if f.op64 then 2 else 1) true true true, a := .s2, b := .s1,
                      c := .src (atomDataWords (f.e.toNat % 16) f.op64) .any, e := .modifier (atomEOk f.e.toNat),
                      mOk := f.m.toNat < 2, hMax := 0, sdest := .whenScalar }
  | .atoms f => some { d := .dst (if f.op64 then 2 else 1) true true true, a := .raw 64, b := .s1,
                       c := .src (atomDataWords (f.e.toNat % 16) f.op64) .any, e := .modifier (f.e.toNat ≤ 10),
                       mOk := f.m.toNat < 2, hMax := 0, sdest := .whenScalar }
  | .red f => some { d := .unused, a := .s2, b := .s1, c := .src (if f.op64 then 2 else 1) .any,
                     e := .modifier (redEOk f.e.toNat), mOk := f.m.toNat < 2, hMax := 0, sdest := .whenScalar }
  | .fence f => some { d := .unused, a := .unused, b := .unused, c := .unused, e := .modifier (scopeOk f.e.toNat),
                       mOk := f.m == 0, hMax := 0, sdest := .whenScalar }
  | .pref f => some { d := .unused, a := .s2, b := .s1, c := .unused, e := .imm, mOk := loadSizeOk f.m.toNat, hMax := 3,
                      sdest := .whenScalar }
  | .halloc f => some { d := .dst 1 false true true, a := .src 1 .uniform, b := .src 1 .uniform,
                        c := .src 1 .uniform, e := .imm, mOk := f.m.toNat < 2, hMax := 0, sdest := .always }
  | .hfree f => some { d := .dst 1 false true true, a := .src 1 .uniform, b := .unused, c := .unused, e := .imm,
                       mOk := f.m == 0, hMax := 0, sdest := .always }
  | .hqry f => some { d := .dst 2 false true true, a := .src 1 .uniform, b := .unused, c := .unused, e := .imm,
                      mOk := f.m == 0, hMax := 0, sdest := .always }
  | .rfence f => some { d := .unused, a := .unused, b := .unused, c := .unused, e := .zero,
                        mOk := 1 ≤ f.m.toNat && f.m.toNat < 4, hMax := 0, sdest := .whenScalar }
  | .qpost f => some { d := .dst 1 false true true, a := .src 2 .uniform, b := .src 1 .uniform, c := .s2,
                       e := .modifier (scopeOk f.e.toNat), mOk := f.m == 0, hMax := 0, sdest := .always }
  | .qtake f => some { d := .dst 2 true true true, a := .src 2 .uniform, b := .src 1 .uniform, c := .unused,
                       e := .modifier (scopeOk f.e.toNat), mOk := f.m == 0, hMax := 0, sdest := .whenScalar }
  | .tlsig f => some { d := .unused, a := .src 2 .uniform, b := .src 1 .uniform, c := .src 2 .uniform,
                       e := .modifier (scopeOk f.e.toNat), mOk := f.m.toNat < 2, hMax := 0, sdest := .always }
  | .icinv f => some { d := .dst 1 false true true, a := .src 2 .uniform, b := .src 1 .uniform,
                       c := .src 1 .uniform, e := .modifier (1 ≤ f.e.toNat && f.e.toNat ≤ 3), mOk := f.m == 0,
                       hMax := 0, sdest := .always }
  | .ldl f => some { d := .dst (sizeWords f.m.toNat) true true true, a := .unused, b := .s1, c := .unused,
                     e := .imm, mOk := spillSizeOk f.m.toNat, hMax := 2, sdest := .whenScalar }
  | .stl f => some { d := .unused, a := .unused, b := .s1, c := .src (sizeWords f.m.toNat) .any, e := .imm,
                     mOk := spillSizeOk f.m.toNat, hMax := 2, sdest := .whenScalar }
  -- engine slot (R167, R169, R172)
  | .cset f => some { d := .unused, a := .src 1 .uniform, b := .unused, c := .unused,
                      e := .modifier (f.e.toNat < 7), mOk := f.m == 0, hMax := 0, sdest := .always }
  | .cgo f => some { d := .unused, a := .src 2 .uniform, b := .unused, c := .unused,
                     e := .modifier (flagEOk f.e.toNat), mOk := f.m.toNat < 2, hMax := 0, sdest := .always }
  | .cgath f | .cscat f => some { d := .unused, a := .src 2 .uniform, b := .src 1 .perLane, c := .unused,
                                  e := .modifier (flagEOk f.e.toNat), mOk := f.m == 0, hMax := 0, sdest := .always }
  | .cqry f =>
    some { d := .dst (if f.op64 then 1 else 2) false true false, a := .unused, b := .unused, c := .unused,
           e := if f.op64 then .zero else .modifier (flagEOk f.e.toNat), mOk := f.m.toNat < 2, hMax := 0,
           sdest := .always }
  | .mma f => some { d := .raw 32, a := .src 2 .perLane, b := .src 2 .perLane, c := .unused,
                     e := .modifier (flagEOk f.e.toNat), mOk := f.m == 0, hMax := 0, sdest := .always }
  | .mmas f => some { d := .raw 32, a := .src 2 .perLane, b := .src 4 .perLane, c := .src 1 .vOnly,
                      e := .modifier (flagEOk f.e.toNat), mOk := f.m == 0, hMax := 0, sdest := .always }
  | .macq f => some { d := .raw 32, a := .unused, b := .unused, c := .unused,
                      e := .modifier (flagEOk f.e.toNat), mOk := f.m == 0, hMax := 0, sdest := .always }
  | .mrel f => some { d := if f.op64 then .dst 4 true false false else .unused, a := .raw 32, b := .unused,
                      c := .unused, e := .zero, mOk := f.m.toNat < 2, hMax := 0, sdest := .never }
  | .mrd f => some { d := .dst 4 true false false, a := .raw 32, b := .unused, c := .unused, e := .zero,
                     mOk := f.m == 0, hMax := 0, sdest := .never }
  | .mwr f => some { d := .raw 32, a := .src 4 .perLane, b := .unused, c := .unused, e := .zero,
                     mOk := f.m == 0, hMax := 0, sdest := .always }
  | .mzero f => some { d := .raw 32, a := .unused, b := .unused, c := .unused, e := .zero, mOk := f.m == 0,
                       hMax := 0, sdest := .always }
  | .tset f => some { d := .raw 16, a := .src 2 .uniform, b := .unused, c := .unused, e := .zero,
                      mOk := f.m == 0, hMax := 0, sdest := .always }
  | .trav f => some { d := if f.op64 then .src 2 .regs else .unused, a := .raw 16, b := .raw 64,
                      c := .src 2 .uniform, e := .modifier (flagEOk f.e.toNat), mOk := f.m.toNat < 2, hMax := 0,
                      sdest := .always }
  | .tret f => some { d := .unused, a := .src 1 .perLane, b := if f.op64 then .src 1 .perLane else .unused,
                      c := .unused, e := .zero, mOk := f.m.toNat < 2, hMax := 0, sdest := .always }
  | .dpush f => some { d := .raw 64, a := .src 2 .perLane, b := .src 1 .perLane, c := .src 1 .perLane, e := .zero,
                       mOk := f.m == 0, hMax := 0, sdest := .always }
  | .dcut f => some { d := .dst 1 true false false, a := .src 2 .perLane, b := .src 1 .perLane, c := .raw 64,
                      e := .zero, mOk := f.m == 0, hMax := 0, sdest := .never }
  | .ddeal f => some { d := .dst 1 false true false, a := .src 2 .uniform, b := .src 2 .uniform, c := .unused,
                       e := .zero, mOk := f.m == 0, hMax := 0, sdest := .always }
  | .ddepth f => some { d := .dst 1 true false false, a := .raw 64, b := .unused, c := .unused, e := .zero,
                        mOk := f.m == 0, hMax := 0, sdest := .never }
  | .claim f => some { d := .unused, a := .src 1 .uniform, b := .src 1 .uniform, c := .src 2 .uniform,
                       e := .modifier (flagEOk f.e.toNat), mOk := f.m == 0, hMax := 0, sdest := .always }
  | .object f => some { d := .dst 1 false true false, a := .src 1 .uniform, b := .src 1 .uniform, c := .unused,
                        e := .zero, mOk := f.m == 0, hMax := 0, sdest := .always }
  | .clread f => some { d := .dst 4 false true false, a := .src 1 .uniform, b := .src 1 .uniform, c := .unused,
                        e := .zero, mOk := f.m == 0, hMax := 0, sdest := .always }
  | .clpoll f => some { d := .dst 4 false true false, a := .src 1 .uniform, b := .unused, c := .unused, e := .zero,
                        mOk := f.m == 0, hMax := 0, sdest := .always }
  | .clgrp f => some { d := .dst 2 false true false, a := .src 2 .uniform, b := .unused, c := .unused, e := .zero,
                       mOk := f.m == 0, hMax := 0, sdest := .always }
  | _ => none

/-- The A field of a control syllable (R198, R202). -/
inductive CtlA where
  | unused
  | selector
  /-- a number below 8: join register or flag -/
  | raw8
  /-- an S register of w registers, with `%zero` accepted or not -/
  | sreg (w : Nat) (z : Bool)
  /-- any source of w registers (R203) -/
  | src (w : Nat)
  /-- destination pair of PREP with `.get` -/
  | getPair
  deriving DecidableEq, Repr

structure CtlShape where
  a : CtlA
  immOk : Bool
  /-- A is written -/
  isDst : Bool
  deriving DecidableEq, Repr

def Ctl.bits (f : Ctl) (lo n : Nat) : Nat := f.imm.toNat / 2 ^ lo % 2 ^ n
def Ctl.prepMode (f : Ctl) : Nat := f.bits 27 2

/-- The shape of every control syllable but the NOP. -/
def ctlShape : Instr → Option CtlShape
  | .prep f =>
    some { a := if f.prepMode = 0 then .src 1 else if f.prepMode = 2 then .getPair else .src 2,
           immOk := f.prepMode < 3 && (f.prepMode == 0 || f.bits 0 27 == 0), isDst := f.prepMode == 2 }
  | .prepi _ => some { a := .unused, immOk := true, isDst := false }
  | .bra f | .brd f | .call f => some { a := .selector, immOk := f.a == 0 || f.imm == 0, isDst := false }
  | .jset _ | .yield _ => some { a := .raw8, immOk := true, isDst := false }
  | .join f => some { a := .raw8, immOk := f.imm == 0, isDst := false }
  | .ret f | .exit f | .sync f | .kend f => some { a := .unused, immOk := f.imm == 0, isDst := false }
  | .bar f | .bara f =>
    some { a := .unused, immOk := f.bits 5 3 == 0 && f.bits 15 17 == 0, isDst := false }
  | .waitf f => some { a := .unused, immOk := 0 < f.imm.toNat && f.imm.toNat < 256, isDst := false }
  | .fork _ => some { a := .sreg 1 true, immOk := true, isDst := false }
  | .launch f => some { a := .sreg 2 false, immOk := f.imm.toNat < 48, isDst := false }
  | .tlwait _ => some { a := .sreg 4 false, immOk := true, isDst := false }
  | .fmts f | .ovtld f => some { a := .sreg 2 false, immOk := f.imm == 0, isDst := false }
  | .grow f =>
    some { a := .sreg 1 false, immOk := f.imm.toNat % 16 == 0 && 16 ≤ f.imm.toNat && f.imm.toNat ≤ 192,
           isDst := true }
  | .shrink f =>
    some { a := .unused, immOk := f.imm.toNat % 16 == 0 && 16 ≤ f.imm.toNat && f.imm.toNat ≤ 192, isDst := false }
  | .enter f => some { a := .unused, immOk := f.imm.toNat < 0xFFFF, isDst := false }
  | .leave f => some { a := .unused, immOk := f.imm.toNat < 0x10000, isDst := false }
  | .bkpt f => some { a := .unused, immOk := f.imm.toNat < 0x10000, isDst := false }
  | .trap f => some { a := .unused, immOk := f.imm.toNat < 32, isDst := false }
  | .rft f => some { a := .sreg 2 false, immOk := f.imm.toNat < 2, isDst := false }
  | .srd f => some { a := .sreg 1 false, immOk := f.imm.toNat < 4096, isDst := true }
  | .swr f => some { a := .sreg 1 false, immOk := f.imm.toNat < 4096, isDst := false }
  | .sleep _ => some { a := .sreg 1 true, immOk := true, isDst := false }
  | _ => none

/-! ### The reasons (R55) -/

def reasonIf (n : Nat) (b : Bool) : List Nat := if b then [n] else []

/-- Reasons of a source field; `x` is its X bit. -/
def srcReasons (w : Nat) (acc : Accept) (c : Nat) (x : Bool) (e8Ok : Bool) : List Nat :=
  reasonIf 1 (x && !isReg c) ++ reasonIf 2 (decide (250 ≤ c)) ++ reasonIf 3 (c == codeE8 && !e8Ok) ++
  reasonIf 5 (
    (isV c && acc == .uniform) || (!isV c && acc == .vOnly && c < 250) ||
    (!isReg c && acc == .regs && c < 250) ||
    (decide (240 ≤ c) && decide (c < 244) && (acc != .any || (w == 2 && c != 242) || w == 4)) ||
    (c == codeLane && (acc == .uniform || w != 1)) || ((c == codeWid || c == codeTid) && w != 1))

/-- Reasons of a destination field. In a field narrowed to a kind of register, every other code is reason 5 (R54);
otherwise a code that is not writable is left to R34. -/
def dstReasons (v s z : Bool) (sd : SDest) (scalar : Bool) (c : Nat) : List Nat :=
  reasonIf 2 (decide (250 ≤ c)) ++
  reasonIf 5 (
    (isV c && !v) || (isS c && (!s || sd == .never || (sd == .whenScalar && !scalar))) ||
    (decide (240 ≤ c) && decide (c < 250) && !z))

def fieldReasons (k : Field) (sd : SDest) (scalar : Bool) (c : Nat) (x : Bool) (e8Ok : Bool) : List Nat :=
  match k with
  | .unused => reasonIf 1 (c != 0 || x)
  | .dst _ v s z => dstReasons v s z sd scalar c
  | .src w acc => srcReasons w acc c x e8Ok
  | .pred => reasonIf 1 x ++ reasonIf 5 (decide (6 < c))
  | .raw n => reasonIf 1 x ++ reasonIf 5 (decide (n ≤ c))

/-- The field is a source that names code c. -/
def Field.names (k : Field) (c code : Nat) : Bool :=
  match k with
  | .src _ _ => c == code
  | _ => false

/-- The field keeps the operation scalar: it names no V register and no `%lane` (R48, R132). -/
def Field.scalar (k : Field) (c : Nat) : Bool :=
  match k with
  | .src _ _ => !(isV c) && c != codeLane
  | .dst _ _ _ _ => !(isV c)
  | _ => true

/-- Scalar form (R48, R132): no used field names a V register or `%lane`. A destination `%zero` of a vector operation
leaves it per-lane (R48). -/
def Shape.scalar (h : Shape) (f : Syl) : Bool :=
  h.d.scalar f.d.toNat && h.a.scalar f.a.toNat && h.b.scalar f.b.toNat && h.c.scalar f.c.toNat

def Shape.namesCode (h : Shape) (f : Syl) (code : Nat) : Bool :=
  h.d.names f.d.toNat code || h.a.names f.a.toNat code || h.b.names f.b.toNat code || h.c.names f.c.toNat code

/-- The operand field holds `%e8`, be it as a destination (R47). -/
def Field.holdsE8 (k : Field) (c : Nat) : Bool :=
  match k with
  | .src _ _ => c == codeE8
  | .dst _ _ _ _ => c == codeE8
  | _ => false

def Shape.holdsE8 (h : Shape) (f : Syl) : Bool :=
  h.d.holdsE8 f.d.toNat || h.a.holdsE8 f.a.toNat || h.b.holdsE8 f.b.toNat || h.c.holdsE8 f.c.toNat

def eReasons (h : Shape) (f : Syl) : List Nat :=
  match h.e with
  | .imm => reasonIf 1 (f.e != 0 && !h.holdsE8 f)
  | .zero => reasonIf 1 (f.e != 0)
  | .modifier ok => reasonIf 4 (!ok)

/-- Reasons of the fields of a syllable. `%e8` is reason 3 where E is a modifier (R55), and in the engine slot also where E is zero; in a
vector instruction whose E must be zero it reads 0. (log 71, DEDUCED) -/
def sylReasons (slot : Slot) (h : Shape) (f : Syl) : List Nat :=
  let e8Ok := h.e == .imm || (h.e == .zero && slot == .vector)
  let sc := h.scalar f
  reasonIf 1 (f.h != 0 && slot != .memory) ++ reasonIf 4 (decide (h.hMax < f.h.toNat) && slot == .memory) ++
  reasonIf 4 (!h.mOk) ++ eReasons h f ++
  fieldReasons h.d h.sdest sc f.d.toNat false e8Ok ++ fieldReasons h.a h.sdest sc f.a.toNat f.xa e8Ok ++
  fieldReasons h.b h.sdest sc f.b.toNat f.xb e8Ok ++ fieldReasons h.c h.sdest sc f.c.toNat f.xc e8Ok

def ctlReasons (h : CtlShape) (f : Ctl) : List Nat :=
  let c := f.a.toNat
  reasonIf 4 (!h.immOk) ++
  match h.a with
  | .unused => reasonIf 1 (c != 0)
  | .selector => reasonIf 5 (c != 0 && !(0x80 ≤ c && c ≤ 0x87))
  | .raw8 => reasonIf 5 (decide (8 ≤ c))
  | .sreg _ z =>
    reasonIf 2 (decide (250 ≤ c)) ++ reasonIf 3 (c == codeImm || c == codeE8) ++
    reasonIf 5 (!(isS c || (z && c == codeZero)) && c < 248)
  | .src w =>
    reasonIf 2 (decide (250 ≤ c)) ++ reasonIf 3 (c == codeImm || c == codeE8) ++
    reasonIf 5 (c < 248 && w == 2 && !(isReg c || c == 242 || c == codeZero))
  | .getPair =>
    reasonIf 2 (decide (250 ≤ c)) ++ reasonIf 3 (c == codeImm || c == codeE8) ++ reasonIf 5 (!isReg c && c < 248)

def minReason : List Nat → Option Nat
  | [] => none
  | r :: t => some (match minReason t with | none => r | some q => Nat.min r q)

/-- The reasons that the fields of an instruction give. -/
def staticReasons (i : Instr) : List Nat :=
  match view i with
  | .event => [0]
  | .syl slot op f =>
    if op = 0 then
      reasonIf 1 (f.d != 0 || f.a != 0 || f.b != 0 || f.c != 0 || f.e != 0 || f.xa || f.xb || f.xc || f.m != 0 ||
        f.h != 0)
    else
      match shape i with
      | none => [0]
      | some h => sylReasons slot h f
  | .ctl op f =>
    if op = 0 then reasonIf 1 (f.a != 0)
    else
      match ctlShape i with
      | none => [0]
      | some h => ctlReasons h f

end Sys2Proof
end

