-- ==== Sys2Proof/WellFormed.lean ====
section
/-! DEFINITION. Well-formed instructions: those that no issue check on their fields alone turns away (R47, R53 to
R55, R95 to R98, R130 to R135, R167 to R169, R198). -/

namespace Sys2Proof

/-- The instruction stands in a slot and raises none of the reasons that its fields decide. -/
def WellFormed (i : Instr) : Prop := minReason (staticReasons i) = none

/-- The bundle's four instructions stand in their slots (R41). -/
def slotOf (i : Instr) : Option Slot :=
  match view i with
  | .syl s _ _ => some s
  | .ctl _ _ => some .control
  | .event => none

end Sys2Proof
end

