-- ==== Sys2Proof/Decode.lean ====
section
/-! DEFINITION. Decoding a bundle (R41 to R55) and, after it, the encoder. Both are written from the layouts of R44 and
R49 and the opcode map of R59. -/

namespace Sys2Proof

/-- The reasons of R55, by name. -/
inductive IssueReason where
  | unassignedOpcode
  | reservedField
  | reservedOperand
  | immediateMisuse
  | reservedModifier
  | operandNotPermitted
  | reservedFormat
  | featureDisabled
  deriving DecidableEq, Repr

def issueReasonOf : Nat → IssueReason
  | 0 => .unassignedOpcode
  | 1 => .reservedField
  | 2 => .reservedOperand
  | 3 => .immediateMisuse
  | 4 => .reservedModifier
  | 5 => .operandNotPermitted
  | 6 => .reservedFormat
  | _ => .featureDisabled

/-- A field of a word: n bits from bit lo. -/
def fieldOf (lo n : Nat) (w : DWord) : BitVec n := w.extractLsb' lo n

/-- The fields of a vector, memory or engine syllable (R44). -/
def sylFields (w : DWord) : Syl :=
  { g1 := fieldOf 52 4 w, g2 := fieldOf 48 4 w, d := fieldOf 40 8 w, a := fieldOf 32 8 w, b := fieldOf 24 8 w,
    c := fieldOf 16 8 w, e := fieldOf 8 8 w, xa := w.getLsbD 7, xb := w.getLsbD 6, xc := w.getLsbD 5,
    m := fieldOf 2 3 w, h := fieldOf 0 2 w }

/-- The fields of a control syllable (R49). -/
def ctlFields (w : DWord) : Ctl :=
  { g1 := fieldOf 52 4 w, g2 := fieldOf 48 4 w, gap := fieldOf 45 3 w, land := w.getLsbD 44, yield := w.getLsbD 43,
    a := fieldOf 32 8 w, imm := fieldOf 0 32 w }

def opField (w : DWord) : Nat := (fieldOf 56 8 w).toNat

/-- The vector map (R59). -/
def vectorOp (f : Syl) : Nat → Option Instr
  | 0x00 => some (.vnop f)
  | 0x01 => some (.vadd f)
  | 0x02 => some (.vsub f)
  | 0x03 => some (.vaddc f)
  | 0x04 => some (.vmul f)
  | 0x05 => some (.vmulh f)
  | 0x06 => some (.vmulw f)
  | 0x07 => some (.vmad f)
  | 0x08 => some (.vmin f)
  | 0x09 => some (.vmax f)
  | 0x0A => some (.vabsd f)
  | 0x0B => some (.vand f)
  | 0x0C => some (.vor f)
  | 0x0D => some (.vxor f)
  | 0x0E => some (.vandn f)
  | 0x0F => some (.vshl f)
  | 0x10 => some (.vshr f)
  | 0x11 => some (.vbfe f)
  | 0x12 => some (.vbfi f)
  | 0x13 => some (.vpopc f)
  | 0x14 => some (.vclz f)
  | 0x15 => some (.vbrev f)
  | 0x16 => some (.vsel f)
  | 0x17 => some (.vcmp f)
  | 0x18 => some (.vmov f)
  | 0x19 => some (.vclamp f)
  | 0x1A => some (.vperm f)
  | 0x1B => some (.vreq f)
  | 0x20 => some (.vfadd f)
  | 0x21 => some (.vfsub f)
  | 0x22 => some (.vfmul f)
  | 0x23 => some (.vfma f)
  | 0x24 => some (.vfmin f)
  | 0x25 => some (.vfmax f)
  | 0x26 => some (.vfcmp f)
  | 0x27 => some (.vfclass f)
  | 0x28 => some (.vfrnd f)
  | 0x30 => some (.vdadd f)
  | 0x31 => some (.vdmul f)
  | 0x32 => some (.vdfma f)
  | 0x33 => some (.vdmin f)
  | 0x34 => some (.vdmax f)
  | 0x35 => some (.vdcmp f)
  | 0x38 => some (.vhadd2 f)
  | 0x39 => some (.vhmul2 f)
  | 0x3A => some (.vhfma2 f)
  | 0x3B => some (.vbfma2 f)
  | 0x40 => some (.vcvt f)
  | 0x41 => some (.vpack f)
  | 0x42 => some (.vunpk f)
  | 0x48 => some (.vrcp f)
  | 0x49 => some (.vrsq f)
  | 0x4A => some (.vsqrt f)
  | 0x4B => some (.vexp2 f)
  | 0x4C => some (.vlog2 f)
  | 0x4D => some (.vsin f)
  | 0x4E => some (.vtanh f)
  | 0x50 => some (.vshfl f)
  | 0x51 => some (.vred f)
  | 0x52 => some (.vscan f)
  | 0x53 => some (.vballot f)
  | 0x54 => some (.vmatch f)
  | 0x55 => some (.vote f)
  | 0x56 => some (.vplog f)
  | 0x57 => some (.vpmov f)
  | _ => none

/-- The memory map (R59). -/
def memoryOp (f : Syl) : Nat → Option Instr
  | 0x00 => some (.mnop f)
  | 0x01 => some (.ldg f)
  | 0x02 => some (.stg f)
  | 0x03 => some (.lds f)
  | 0x04 => some (.sts f)
  | 0x05 => some (.ldc f)
  | 0x06 => some (.ldacq f)
  | 0x07 => some (.strel f)
  | 0x08 => some (.atom f)
  | 0x09 => some (.atoms f)
  | 0x0A => some (.red f)
  | 0x0B => some (.fence f)
  | 0x0C => some (.pref f)
  | 0x0D => some (.halloc f)
  | 0x0E => some (.hfree f)
  | 0x0F => some (.hqry f)
  | 0x10 => some (.rfence f)
  | 0x11 => some (.qpost f)
  | 0x12 => some (.qtake f)
  | 0x13 => some (.tlsig f)
  | 0x14 => some (.icinv f)
  | 0x15 => some (.ldl f)
  | 0x16 => some (.stl f)
  | _ => none

/-- The engine map (R59). -/
def engineOp (f : Syl) : Nat → Option Instr
  | 0x00 => some (.enop f)
  | 0x01 => some (.cset f)
  | 0x02 => some (.cgo f)
  | 0x03 => some (.cgath f)
  | 0x04 => some (.cscat f)
  | 0x05 => some (.cqry f)
  | 0x10 => some (.mma f)
  | 0x11 => some (.mmas f)
  | 0x12 => some (.macq f)
  | 0x13 => some (.mrel f)
  | 0x14 => some (.mrd f)
  | 0x15 => some (.mwr f)
  | 0x16 => some (.mzero f)
  | 0x20 => some (.tset f)
  | 0x21 => some (.trav f)
  | 0x22 => some (.tret f)
  | 0x23 => some (.dpush f)
  | 0x24 => some (.dcut f)
  | 0x25 => some (.ddeal f)
  | 0x26 => some (.ddepth f)
  | 0x30 => some (.claim f)
  | 0x31 => some (.object f)
  | 0x32 => some (.clread f)
  | 0x33 => some (.clpoll f)
  | 0x34 => some (.clgrp f)
  | _ => none

/-- The control map (R59). -/
def controlOp (f : Ctl) : Nat → Option Instr
  | 0x00 => some (.nop f)
  | 0x01 => some (.prep f)
  | 0x02 => some (.prepi f)
  | 0x03 => some (.bra f)
  | 0x04 => some (.brd f)
  | 0x05 => some (.jset f)
  | 0x06 => some (.join f)
  | 0x07 => some (.call f)
  | 0x08 => some (.ret f)
  | 0x09 => some (.exit f)
  | 0x0A => some (.bar f)
  | 0x0B => some (.bara f)
  | 0x0C => some (.waitf f)
  | 0x0D => some (.yield f)
  | 0x0E => some (.fork f)
  | 0x0F => some (.sync f)
  | 0x10 => some (.launch f)
  | 0x11 => some (.tlwait f)
  | 0x12 => some (.fmts f)
  | 0x13 => some (.grow f)
  | 0x14 => some (.shrink f)
  | 0x15 => some (.enter f)
  | 0x16 => some (.leave f)
  | 0x17 => some (.trap f)
  | 0x18 => some (.rft f)
  | 0x19 => some (.ovtld f)
  | 0x1A => some (.srd f)
  | 0x1B => some (.swr f)
  | 0x1C => some (.sleep f)
  | 0x1D => some (.bkpt f)
  | 0x1E => some (.kend f)
  | _ => none

/-- The instruction of an assigned opcode, whatever its fields hold. -/
def rawSyllable (slot : Slot) (w : DWord) : Option Instr :=
  match slot with
  | .vector => vectorOp (sylFields w) (opField w)
  | .memory => memoryOp (sylFields w) (opField w)
  | .engine => engineOp (sylFields w) (opField w)
  | .control => controlOp (ctlFields w) (opField w)

/-- Control bits [42:40] are reserved (R49). -/
def wordReasons (slot : Slot) (w : DWord) : List Nat :=
  reasonIf 1 (slot == .control && fieldOf 40 3 w != 0)

/-- All the reasons that a word gives by itself (R55). -/
def syllableReasons (slot : Slot) (w : DWord) : List Nat :=
  match rawSyllable slot w with
  | none => [0]
  | some i => wordReasons slot w ++ staticReasons i

/-- Decode one syllable, or name the lowest reason of R55 that refuses it. -/
def decodeSyllable (slot : Slot) (w : DWord) : Except IssueReason Instr :=
  match rawSyllable slot w, minReason (syllableReasons slot w) with
  | some i, none => .ok i
  | _, some r => .error (issueReasonOf r)
  | none, none => .error .unassignedOpcode

/-- Little-endian value of a list of bytes (R4). -/
def bytesToNat : List Byte → Nat
  | [] => 0
  | b :: t => b.toNat + 256 * bytesToNat t

/-- The n bytes of a value, lowest first (R4). -/
def natToBytes : Nat → Nat → List Byte
  | 0, _ => []
  | n + 1, v => BitVec.ofNat 8 v :: natToBytes n (v / 256)

/-- Syllable k of a bundle's 256 bits (R41). -/
def syllableOf (w : BitVec 256) (k : Nat) : DWord := w.extractLsb' (64 * k) 64

/-- Decode a bundle: the failing slot that comes first and its lowest reason are named (R57). -/
def decodeBundle (w : BitVec 256) : Except (Slot × IssueReason) Bundle :=
  match decodeSyllable .vector (syllableOf w 0) with
  | .error r => .error (.vector, r)
  | .ok v =>
    match decodeSyllable .memory (syllableOf w 1) with
    | .error r => .error (.memory, r)
    | .ok m =>
      match decodeSyllable .engine (syllableOf w 2) with
      | .error r => .error (.engine, r)
      | .ok e =>
        match decodeSyllable .control (syllableOf w 3) with
        | .error r => .error (.control, r)
        | .ok c => .ok { v := v, m := m, e := e, c := c }

/-- Decode the 32 bytes at a bundle address (R41). Fewer or more bytes are no bundle. -/
def decodeBytes (bs : List Byte) : Except (Slot × IssueReason) Bundle :=
  if bs.length = 32 then decodeBundle (BitVec.ofNat 256 (bytesToNat bs)) else .error (.vector, .unassignedOpcode)

/-- The word of a vector, memory or engine syllable (R44). -/
def sylWord (op : Nat) (f : Syl) : DWord :=
  BitVec.ofNat 8 op ++ f.g1 ++ f.g2 ++ f.d ++ f.a ++ f.b ++ f.c ++ f.e ++ BitVec.ofBool f.xa ++ BitVec.ofBool f.xb ++
    BitVec.ofBool f.xc ++ f.m ++ f.h

/-- The word of a control syllable (R49). -/
def ctlWord (op : Nat) (f : Ctl) : DWord :=
  BitVec.ofNat 8 op ++ f.g1 ++ f.g2 ++ f.gap ++ BitVec.ofBool f.land ++ BitVec.ofBool f.yield ++ (0 : BitVec 3) ++
    f.a ++ f.imm

/-- The word of an instruction; a step of the part has none and gives 0. -/
def encode (i : Instr) : DWord :=
  match view i with
  | .syl _ op f => sylWord op f
  | .ctl op f => ctlWord op f
  | .event => 0

/-- The 256 bits of a bundle (R41). -/
def encodeBundle (b : Bundle) : BitVec 256 := encode b.c ++ encode b.e ++ encode b.m ++ encode b.v

/-- An instruction that is the NOP of its slot. -/
def isNop (i : Instr) : Bool :=
  match view i with
  | .syl _ op _ => op == 0
  | .ctl op _ => op == 0
  | .event => false

/-- The NOP of a slot (R42). -/
def slotNop (slot : Slot) : Instr := (rawSyllable slot 0).getD (.vnop (sylFields 0))

/-- The instruction that the decoder reads from a bundle whose bits are w: the first syllable, in slot order, that is
not its slot's NOP; the vector NOP where all four are NOPs. -/
def decodeTableWord (_nbits w : Nat) : Option Instr :=
  match decodeBundle (BitVec.ofNat 256 w) with
  | .error _ => none
  | .ok b =>
    if !isNop b.v then some b.v
    else if !isNop b.m then some b.m
    else if !isNop b.e then some b.e
    else if !isNop b.c then some b.c
    else some b.v

end Sys2Proof
end

