-- ==== Sys2Proof/Machine/Float.lean ====
section
/-! DEFINITION. Number formats, rounding and conversions (file 04 of spec/, R66 to R93). -/

namespace Sys2Proof.Machine

/-- An exact value: `fin neg m e` is ±m·2^e; with m = 0 it is the zero of that sign. -/
inductive FVal where
  | nan
  | inf (neg : Bool)
  | fin (neg : Bool) (m : Nat) (e : Int)
  deriving DecidableEq, Repr

/-- An IEEE format: exponent and fraction widths (R68). -/
structure FpFmt where
  eb : Nat
  fb : Nat
  deriving DecidableEq, Repr

def fp64 : FpFmt := ⟨11, 52⟩
def fp32 : FpFmt := ⟨8, 23⟩
def fp16 : FpFmt := ⟨5, 10⟩
def bf16 : FpFmt := ⟨8, 7⟩
/-- The accumulator element (R87). -/
def fpAcc : FpFmt := ⟨10, 23⟩

def FpFmt.bias (f : FpFmt) : Nat := 2 ^ (f.eb - 1) - 1
/-- Bits of +∞. -/
def FpFmt.infBits (f : FpFmt) : Nat := (2 ^ f.eb - 1) * 2 ^ f.fb
def FpFmt.signBit (f : FpFmt) (neg : Bool) : Nat := if neg then 2 ^ (f.eb + f.fb) else 0
/-- The canonical NaN (R70). -/
def FpFmt.nanBits (f : FpFmt) : Nat := f.infBits + 2 ^ (f.fb - 1)
/-- Exponent of the least significant bit of a subnormal. -/
def FpFmt.qmin (f : FpFmt) : Int := 1 - (f.bias : Int) - (f.fb : Int)

/-- The value of a bit pattern (R68). -/
def FpFmt.value (f : FpFmt) (bits : Nat) : FVal :=
  let frac := bits % 2 ^ f.fb
  let ex := bits / 2 ^ f.fb % 2 ^ f.eb
  let neg := bits / 2 ^ (f.eb + f.fb) % 2 == 1
  if ex = 2 ^ f.eb - 1 then (if frac = 0 then .inf neg else .nan)
  else if ex = 0 then .fin neg frac f.qmin
  else .fin neg (2 ^ f.fb + frac) (f.qmin + (ex : Int) - 1)

/-- Rounding modes of RMODE (R32), and nearest with ties away from zero (R112). -/
inductive RMode where
  | rne
  | rz
  | ru
  | rd
  | rna
  deriving DecidableEq, Repr

def RMode.ofNat4 (n : Nat) : RMode :=
  match n % 4 with
  | 0 => .rne
  | 1 => .rz
  | 2 => .ru
  | _ => .rd

/-- Does a magnitude k + rem/2^s (0 < s) round up to k + 1? -/
def roundsUp (mode : RMode) (neg : Bool) (k rem s : Nat) : Bool :=
  match mode with
  | .rne => decide (2 ^ s < 2 * rem) || (2 * rem == 2 ^ s && k % 2 == 1)
  | .rna => decide (2 ^ s ≤ 2 * rem)
  | .rz => false
  | .ru => !neg && rem != 0
  | .rd => neg && rem != 0

/-- m·2^e as a multiple of 2^q, rounded. -/
def roundAt (mode : RMode) (neg : Bool) (m : Nat) (e q : Int) : Nat :=
  if q ≤ e then m * 2 ^ (e - q).toNat
  else
    let s := (q - e).toNat
    let k := m / 2 ^ s
    if roundsUp mode neg k (m % 2 ^ s) s then k + 1 else k

/-- The bits, without sign, of ±m·2^e (m ≠ 0) rounded once into f; a result at or above `infBits` has overflowed
(R82). -/
def FpFmt.roundBits (f : FpFmt) (mode : RMode) (neg : Bool) (m : Nat) (e : Int) : Nat :=
  let q := max (e + (Nat.log2 m : Int) - (f.fb : Int)) f.qmin
  (q - f.qmin).toNat * 2 ^ f.fb + roundAt mode neg m e q

/-- What an overflow gives (R82): entry 0 the largest finite value, 1 IEEE overflow under the mode, 2 the NaN. -/
def FpFmt.overflow (f : FpFmt) (mode : RMode) (ovt : Nat) (neg : Bool) : Nat :=
  let top := f.infBits - 1
  match ovt with
  | 0 => f.signBit neg + top
  | 1 =>
    match mode with
    | .rne | .rna => f.signBit neg + f.infBits
    | .rz => f.signBit neg + top
    | .ru => f.signBit neg + (if neg then top else f.infBits)
    | .rd => f.signBit neg + (if neg then f.infBits else top)
  | _ => f.nanBits

/-- rnd(x, F, mode) (R69, R70, R82). -/
def FpFmt.round (f : FpFmt) (mode : RMode) (ovt : Nat) : FVal → Nat
  | .nan => f.nanBits
  | .inf neg => f.signBit neg + f.infBits
  | .fin neg m e =>
    if m = 0 then f.signBit neg
    else
      let b := f.roundBits mode neg m e
      if f.infBits ≤ b then f.overflow mode ovt neg else f.signBit neg + b

/-! ### Exact arithmetic -/

def FVal.neg : FVal → FVal
  | .nan => .nan
  | .inf s => .inf (!s)
  | .fin s m e => .fin (!s) m e

def FVal.isNan : FVal → Bool
  | .nan => true
  | _ => false

/-- ±m as an integer. -/
def sgn (neg : Bool) (m : Nat) : Int := if neg then -(m : Int) else (m : Int)

/-- Exact sum; a zero sum takes its sign by R69. -/
def FVal.add (mode : RMode) : FVal → FVal → FVal
  | .nan, _ => .nan
  | _, .nan => .nan
  | .inf s, .inf t => if s = t then .inf s else .nan
  | .inf s, _ => .inf s
  | _, .inf t => .inf t
  | .fin s m e, .fin t n d =>
    let q := min e d
    let v := sgn s (m * 2 ^ (e - q).toNat) + sgn t (n * 2 ^ (d - q).toNat)
    if v = 0 then
      (if m = 0 ∧ n = 0 ∧ s = t then .fin s 0 q else .fin (decide (mode = .rd)) 0 q)
    else .fin (decide (v < 0)) v.natAbs q

/-- Exact product. -/
def FVal.mul : FVal → FVal → FVal
  | .nan, _ => .nan
  | _, .nan => .nan
  | .inf s, .inf t => .inf (s != t)
  | .inf s, .fin t n _ => if n = 0 then .nan else .inf (s != t)
  | .fin s m _, .inf t => if m = 0 then .nan else .inf (s != t)
  | .fin s m e, .fin t n d => .fin (s != t) (m * n) (e + d)

/-- The value times 2^k (R86). -/
def FVal.scale (k : Int) : FVal → FVal
  | .fin s m e => .fin s m (e + k)
  | x => x

/-- x < y as real numbers with -0 below +0 when `zeros` (R71, R114); no operand is a NaN. -/
def FVal.lt (zeros : Bool) : FVal → FVal → Bool
  | .nan, _ => false
  | _, .nan => false
  | .inf s, .inf t => s && !t
  | .inf s, _ => s
  | _, .inf t => !t
  | .fin s m e, .fin t n d =>
    let q := min e d
    let x := sgn s (m * 2 ^ (e - q).toNat)
    let y := sgn t (n * 2 ^ (d - q).toNat)
    if zeros && m == 0 && n == 0 then s && !t else decide (x < y)

/-- Equality as real numbers: -0 equals +0 (R114). -/
def FVal.eq (x y : FVal) : Bool := !x.isNan && !y.isNan && !x.lt false y && !y.lt false x

/-- minimumNumber and maximumNumber on bit patterns (R71). -/
def FpFmt.minmax (f : FpFmt) (isMax : Bool) (a b : Nat) : Nat :=
  let x := f.value a
  let y := f.value b
  if x.isNan then (if y.isNan then f.nanBits else b)
  else if y.isNan then a
  else if isMax then (if x.lt true y then b else a)
  else if y.lt true x then b else a

/-- Conditions of R114. -/
def fpCond (c : Nat) (x y : FVal) : Bool :=
  let un := x.isNan || y.isNan
  match c with
  | 0 => !un && x.eq y
  | 1 => un || !x.eq y
  | 2 => !un && x.lt false y
  | 3 => !un && !y.lt false x
  | 4 => !un && y.lt false x
  | 5 => !un && !x.lt false y
  | 6 => !un
  | _ => un

/-- Class word of R113. -/
def fpClass (bits : Nat) : Nat :=
  let frac := bits % 2 ^ 23
  let ex := bits / 2 ^ 23 % 256
  let neg := bits / 2 ^ 31 % 2 == 1
  if ex = 255 then
    (if frac = 0 then (if neg then 1 else 128) else if frac / 2 ^ 22 = 0 then 256 else 512)
  else if ex = 0 then
    (if frac = 0 then (if neg then 8 else 16) else if neg then 4 else 32)
  else if neg then 2 else 64

/-- VFRND (R112): round to an integral FP32 value. -/
def fpRoundInt (mode : RMode) (bits : Nat) : Nat :=
  match fp32.value bits with
  | .nan => fp32.nanBits
  | .inf neg => fp32.signBit neg + fp32.infBits
  | .fin neg m e => fp32.round .rne 1 (.fin neg (roundAt mode neg m e 0) 0)

/-! ### Tapered formats (R73 to R78) -/

/-- Length of the run of bits equal to `b` from bit i-1 of the body down, for the top i bits. -/
def runLength (body : Nat) (b : Bool) : Nat → Nat
  | 0 => 0
  | i + 1 => if body.testBit i == b then 1 + runLength body b i else 0

/-- The magnitude of a positive M8 body 1 to 0x7E as a multiple of 2^-12 (R73). -/
def m8Units (body : Nat) : Nat :=
  let ones := body.testBit 6
  let l := runLength body ones 7
  let rest := 6 - l
  let low := body % 2 ^ rest
  let e := if rest = 0 then 0 else low / 2 ^ (rest - 1)
  let fbits := rest - 1
  let f := low % 2 ^ fbits
  let twoReg : Int := if ones then 2 * ((l : Int) - 1) else -2 * (l : Int)
  (2 ^ fbits + f) * 2 ^ (twoReg + (e : Int) + 12 - (fbits : Int)).toNat

/-- The magnitude of a positive M4 body 1 to 6 as a multiple of 1/4 (R75). -/
def m4Units (body : Nat) : Nat :=
  match body with
  | 1 => 1
  | 2 => 2
  | 3 => 3
  | 4 => 4
  | 5 => 6
  | _ => 8

/-- A tapered format: body width, unit exponent, magnitude of a body. -/
structure Tapered where
  bb : Nat
  unit : Nat
  units : Nat → Nat

def m8Fmt : Tapered := ⟨7, 12, m8Units⟩
def m4Fmt : Tapered := ⟨3, 2, m4Units⟩

/-- Units of a body with zero for body 0 and twice the largest finite magnitude for the infinity body (R76). -/
def Tapered.mag (t : Tapered) (body : Nat) : Nat :=
  if body = 0 then 0
  else if body = 2 ^ t.bb - 1 then 2 * t.units (2 ^ t.bb - 2)
  else t.units body

def Tapered.value (t : Tapered) (code : Nat) : FVal :=
  let body := code % 2 ^ t.bb
  let neg := code / 2 ^ t.bb % 2 == 1
  if body = 0 then (if neg then .nan else .fin false 0 0)
  else if body = 2 ^ t.bb - 1 then .inf neg
  else .fin neg (t.units body) (-(t.unit : Int))

/-- The greatest body below n whose magnitude is at most num/2^s units. -/
def Tapered.floorBody (t : Tapered) (num s : Nat) : Nat → Nat
  | 0 => 0
  | n + 1 => if t.mag n * 2 ^ s ≤ num then n else t.floorBody num s n

/-- The body nearest to num/2^s units (R76, R77, R78). -/
def Tapered.nearest (t : Tapered) (num s : Nat) : Nat :=
  let c := t.floorBody num s (2 ^ t.bb)
  if c = 2 ^ t.bb - 1 then c
  else
    let mid := (t.mag c + t.mag (c + 1)) * 2 ^ s
    if 2 * num < mid then c else if mid < 2 * num then c + 1 else if c % 2 = 0 then c else c + 1

def Tapered.nanCode (t : Tapered) : Nat := 2 ^ t.bb

/-- Conversion into M8 or M4 (R76, R82). -/
def Tapered.round (t : Tapered) (ovt : Nat) : FVal → Nat
  | .nan => t.nanCode
  | .inf neg => (if neg then 2 ^ t.bb else 0) + (2 ^ t.bb - 1)
  | .fin neg m e =>
    let k := e + (t.unit : Int)
    let s := (-k).toNat
    let b := t.nearest (m * 2 ^ k.toNat) s
    let sg := if neg then 2 ^ t.bb else 0
    if b = 0 then 0
    else if b = 2 ^ t.bb - 1 then
      (match ovt with
       | 0 => sg + (2 ^ t.bb - 2)
       | 1 => sg + (2 ^ t.bb - 1)
       | _ => t.nanCode)
    else sg + b

/-! ### Format codes (R66) -/

/-- Width in bits of a format code. -/
def fmtWidth (c : Nat) : Nat :=
  match c with
  | 0 => 32
  | 1 => 16
  | 2 => 16
  | 3 => 8
  | 4 => 4
  | 5 => 8
  | 6 => 4
  | 7 => 64
  | 8 => 32
  | _ => 8

def fmtIsInt (c : Nat) : Bool := c == 5 || c == 6 || c == 8 || c == 9

/-- The integer that an integer code holds (R79). -/
def fmtInt (c bits : Nat) : Int :=
  let w := fmtWidth c
  let v := bits % 2 ^ w
  if c = 9 then v else if 2 ^ (w - 1) ≤ v then (v : Int) - 2 ^ w else v

/-- The exact value of element 0 of a word in a format. -/
def fmtValue (c bits : Nat) : FVal :=
  match c with
  | 0 => fp32.value (bits % 2 ^ 32)
  | 1 => fp16.value (bits % 2 ^ 16)
  | 2 => bf16.value (bits % 2 ^ 16)
  | 3 => m8Fmt.value (bits % 256)
  | 4 => m4Fmt.value (bits % 16)
  | 7 => fp64.value (bits % 2 ^ 64)
  | _ =>
    let i := fmtInt c bits
    .fin (decide (i < 0)) i.natAbs 0

/-- The entry of OVT for a format code (R81). -/
def ovtEntry (ovt : DWord) (c : Nat) : Nat := ovt.toNat / 2 ^ (2 * c) % 4

def intMin (c : Nat) : Int := if c = 9 then 0 else -(2 ^ (fmtWidth c - 1) : Int)
def intMax (c : Nat) : Int := if c = 9 then 255 else (2 ^ (fmtWidth c - 1) : Int) - 1

/-- satfmt (R7). -/
def satInt (c : Nat) (i : Int) : Int := max (intMin c) (min (intMax c) i)

/-- The low w bits of the two's complement value (R79). -/
def intBits (w : Nat) (i : Int) : Nat := (i % (2 ^ w : Int)).toNat

/-- The indefinite code (R80). -/
def intIndef (c : Nat) : Nat := if c = 9 then 0 else 2 ^ (fmtWidth c - 1)

/-- Floating to integer (R80). -/
def toIntFmt (c : Nat) (mode : RMode) (ent : Nat) : FVal → Nat
  | .nan => if ent = 2 then intIndef c else 0
  | .inf neg => if ent = 2 then intIndef c else intBits (fmtWidth c) (if neg then intMin c else intMax c)
  | .fin neg m e =>
    let i := sgn neg (roundAt mode neg m e 0)
    if intMin c ≤ i ∧ i ≤ intMax c then intBits (fmtWidth c) i
    else if ent = 2 then intIndef c else intBits (fmtWidth c) (satInt c i)

/-- Round a value once into a floating format code. -/
def roundFmt (c : Nat) (mode : RMode) (ent : Nat) (x : FVal) : Nat :=
  match c with
  | 0 => fp32.round mode ent x
  | 1 => fp16.round mode ent x
  | 2 => bf16.round mode ent x
  | 3 => m8Fmt.round ent x
  | 4 => m4Fmt.round ent x
  | _ => fp64.round mode ent x

/-- Integer to integer (R79). -/
def intToInt (c : Nat) (nsat : Bool) (i : Int) : Nat :=
  intBits (fmtWidth c) (if nsat then satInt c i else i)

/-- VCVT (R117): from code a to code o. -/
def convert (a o : Nat) (mode : RMode) (nsat : Bool) (ovt : DWord) (bits : Nat) : Nat :=
  if fmtIsInt a && fmtIsInt o then intToInt o nsat (fmtInt a bits)
  else if fmtIsInt o then toIntFmt o mode (ovtEntry ovt o) (fmtValue a bits)
  else roundFmt o mode (ovtEntry ovt o) (fmtValue a bits)

/-! ### Matrix sums (R87 to R90) -/

/-- An exact product term: NaN for 0 × ∞ (R90). -/
def isInfVal : FVal → Bool
  | .inf _ => true
  | _ => false

/-- The sign of a term. -/
def signOf : FVal → Bool
  | .fin s _ _ => s
  | .inf s => s
  | .nan => false

/-- floor(log2 |t|) of a nonzero finite term. -/
def topExp : FVal → Option Int
  | .fin _ m e => if m = 0 then none else some (e + (Nat.log2 m : Int))
  | _ => none

def maxExp : List FVal → Option Int
  | [] => none
  | t :: r =>
    match topExp t, maxExp r with
    | some a, some b => some (max a b)
    | some a, none => some a
    | none, x => x

/-- A term cut toward zero onto the grid 2^q: signed steps, and whether a nonzero bit was lost (R90). -/
def gridTerm (q : Int) : FVal → Int × Bool
  | .fin s m e =>
    if q ≤ e then (sgn s (m * 2 ^ (e - q).toNat), false)
    else
      let k := (q - e).toNat
      (sgn s (m / 2 ^ k), m % 2 ^ k != 0)
  | _ => (0, false)

/-- The block rule of R90: the accumulator bits after adding the terms; the first term is C. The 34-bit pattern of a NaN, sign 0, exponent
1,023 and fraction 2^22, is no rule's. (log 73, DESIGN CHOICE) -/
def blockSum (terms : List FVal) : Nat :=
  if terms.any FVal.isNan then fpAcc.nanBits
  else if terms.any (fun t => decide (t = .inf false)) && terms.any (fun t => decide (t = .inf true)) then
    fpAcc.nanBits
  else if terms.any isInfVal then fpAcc.signBit (terms.any fun t => decide (t = .inf true)) + fpAcc.infBits
  else
    match maxExp terms with
    | none => if terms.all signOf then fpAcc.signBit true else 0
    | some emax =>
      let q := emax - 26
      let g := terms.foldl (fun (acc : Int × Bool) t =>
        let r := gridTerm q t
        (acc.1 + r.1, acc.2 || r.2)) (0, false)
      if g.1 = 0 then 0
      else
        -- where bits are dropped, a set sticky bit is one more bit below the grid: it decides only exact ties
        let n := g.1.natAbs
        let drops := decide (q < max (q + (Nat.log2 n : Int) - 23) fpAcc.qmin)
        let m := 2 * n + (if g.2 && drops then 1 else 0)
        fpAcc.round .rne 1 (.fin (decide (g.1 < 0)) m (q - 1))

/-- The integer block (R88): saturated INT32. -/
def intBlock (c : Int) (ps : List Int) : Int := satInt 8 (c + ps.foldl (· + ·) 0)

end Sys2Proof.Machine
end

