-- ==== Sys2Proof/Config.lean ====
section
/-! DEFINITION. What this part fixes (R1) and the values that the spec leaves open, as constants without a body. -/

namespace Sys2Proof.Config

/-- Free value (R119): which of the two bracketing FP32 values a faithful special function returns, a fixed function
of the opcode and the source bits. `true` picks the value of larger magnitude. (log 12, UNVERIFIED) -/
opaque faithfulOuter : Nat → Word → Bool

/-- Free value (R364): the microjoules that a partition's meter gains at a calendar turn, by turn and partition. (log 47, DESIGN CHOICE) -/
opaque energyOfTurn : Nat → Nat → Nat

/-- Free value (R387): byte i of the RSASSA-PSS signature over a quote, made with the device's own key and a salt. (log 48, DESIGN CHOICE) -/
opaque quoteSignature : List Byte → Nat → Byte

/-- Free values where the spec gives an effect and no value: words that no rule states, bytes of a window that no answer
gives, choices between allowed outcomes. `State.free` counts those used (log 13, DESIGN CHOICE). -/
opaque freeValue : Nat → DWord

/-- Free value (R352): the set of a line in its L2 slice. (log 56, DEDUCED) -/
opaque l2Set : Nat → Nat

/-- The device's own number on the UALink fabric (R382, R394): each implementation's. (log 35, DESIGN CHOICE) -/
opaque deviceNumber : Byte

/-- Clusters of a die (R1). -/
def clustersPerDie : Nat := 80

/-- Native latencies of the classes VA, VF, VD and SF (R16). -/
def nativeLatency : Nat → Nat
  | 0 => 3
  | 1 => 5
  | 2 => 8
  | _ => 12

/-- HBM populated per die in bytes (R232). -/
def hbmBytes : Nat := 0x3000000000

/-- The hypervisor's own context and partition numbers: outside the tables of R377 (log 11, DEDUCED). -/
def hvContext : Nat := 256
def hvPartition : Nat := 24

/-- The hypervisor's reserved cluster: cluster 79 of die 3 (R380, R386). -/
def hvCluster : Nat := 319

end Sys2Proof.Config
end

