-- ==== Sys2Proof/Machine/Table.lean ====
section
/-! DEFINITION. Tables: sorted lists of (key, value) pairs in one canonical form. Memory, register files and every
other keyed store of the machine is one. -/

namespace Sys2Proof.Machine

/-- A table of values by number. Canonical: keys strictly rising and, for a table with a default value, no entry
equal to the default. -/
abbrev Table (α : Type) := List (Nat × α)

/-- The entry of key k, if there is one. -/
def tfind {α : Type} : Table α → Nat → Option α
  | [], _ => none
  | (j, v) :: t, k => if j = k then some v else tfind t k

/-- The value at key k in a table with default d. -/
def tget {α : Type} (d : α) (t : Table α) (k : Nat) : α := (tfind t k).getD d

/-- Insert or replace the entry of key k, keys rising. -/
def tput {α : Type} : Table α → Nat → α → Table α
  | [], k, v => [(k, v)]
  | (j, w) :: t, k, v =>
    if k < j then (k, v) :: (j, w) :: t
    else if k = j then (k, v) :: t
    else (j, w) :: tput t k v

/-- Remove the entry of key k. -/
def terase {α : Type} : Table α → Nat → Table α
  | [], _ => []
  | (j, w) :: t, k => if j = k then terase t k else (j, w) :: terase t k

/-- Write v at key k in a table with default d: writing the default removes the entry. -/
def tset {α : Type} [DecidableEq α] (d : α) (t : Table α) (k : Nat) (v : α) : Table α :=
  if v = d then terase t k else tput t k v

/-- The keys rise strictly and start above b (b counted as one less than the least key allowed). -/
def tsorted {α : Type} : Nat → Table α → Bool
  | _, [] => true
  | b, (j, _) :: t => decide (b ≤ j) && tsorted (j + 1) t

/-- The canonical form of a table with default d. -/
def twf {α : Type} [DecidableEq α] (d : α) (t : Table α) : Bool :=
  tsorted 0 t && t.all fun e => decide (e.2 ≠ d)

/-- Memory: bytes by address (R4). (log 1, DESIGN CHOICE) -/
abbrev Memory := Table Byte

/-- What an unlisted address reads as: zero (log 1, DESIGN CHOICE). -/
def Memory.blank : Byte := 0

/-- The canonical form of a memory. -/
def Memory.wf (m : Memory) : Bool := twf Memory.blank m

end Sys2Proof.Machine
end

