-- ==== Sys2Proof/Machine/State.lean ====
section
/-! DEFINITION. The state of the part (files 01, 09, 12, 14, 15, 17, 18, 20, 21, 22 of spec/) as plain data, its
faults and refusals, and the state after reset. -/

namespace Sys2Proof.Machine

/-! ### Warps -/

/-- The three levels (R330). -/
inductive Level where
  | user
  | supervisor
  | hypervisor
  deriving DecidableEq, Repr

/-- The wait state of a divergence group with what it waits for (R11, R340). -/
inductive Wait where
  | ready
  /-- a source register is empty (R26) -/
  | empty
  /-- at JOIN on join register j (R210) -/
  | join (j : Nat)
  /-- in WAITF on the flags of the mask (R213) -/
  | flag (mask : BitVec 8)
  /-- resting after YIELD on flag n (R214) -/
  | rest (n : Nat)
  /-- at barrier b in a phase (R212) -/
  | barrier (b phase : Nat)
  /-- in SLEEP until a TIME (R216) -/
  | sleep (wake : Nat)
  /-- in TLWAIT: deadline TIME if any, counter address and, once it has been read, its named byte, threshold, predicate
  (R215) -/
  | timeline (deadline : Option Nat) (va : DWord) (place : Option Nat) (threshold : DWord) (pred : Nat)
  deriving DecidableEq, Repr

/-- A transfer whose delay bundles still issue (R204): how many, the lanes that transfer and their targets. `restored`: RFT
has put it back from a save area (R344). -/
structure Transfer where
  left : Nat
  lanes : Lanes
  target : Table DWord
  restored : Bool := false
  deriving DecidableEq, Repr

/-- A divergence group (R10). `paid`: the register-bank delay of its next bundle has run (R24); `last`: it issued the warp's
last bundle (R340); `ahead`: the bundles that it has fetched ahead, by address, two at most (R369); `soon`: the warp time at which
it is due where the exit that issued last has completed its join (R210); `away`: lanes that have left it for a call and come back (R304). -/
structure Group where
  mask : Lanes
  pc : DWord
  wait : Wait
  pending : Option Transfer
  paid : Bool := false
  last : Bool := false
  ahead : List (DWord × BitVec 256) := []
  soon : Option Nat := Option.none
  away : Lanes := 0
  deriving DecidableEq, Repr

/-- Where a fixed-latency result goes. -/
inductive Dest where
  /-- register Vn, or the high register of a pair -/
  | v (n : Nat)
  | s (n : Nat)
  | p (n : Nat)
  /-- the format register (R32) -/
  | fmt
  /-- only the latch (a result to `%zero`) -/
  | none
  deriving DecidableEq, Repr

/-- A fixed-latency result in flight (R14, R17 to R20). `cls` is its class 0 to 3, 4 for a result of the control slot. It is written at the end of warp cycle `writeAt` and a reader at `visAt` or later sees it. `wide` holds the
64-bit values that `%vd` takes. -/
structure Result where
  dest : Dest
  cls : Nat
  writeAt : Nat
  visAt : Nat
  lanes : Lanes
  vals : Table Word
  /-- what the latch takes: present in the first half of a result only -/
  latch : Option (Table DWord)
  /-- the latch lanes (all 64 for a scalar form, R18) -/
  latchLanes : Lanes
  latched : Bool
  /-- the high half of a 64-bit value (R341) -/
  half : Bool
  /-- identity, in issue order -/
  seq : Nat
  deriving DecidableEq, Repr

/-- A join register (R29). -/
structure Join where
  expect : Lanes
  arrived : Lanes
  jpc : DWord
  valid : Bool
  deriving DecidableEq, Repr

/-- A completion flag (R30): STATE 0 clear, 1 set, 2 error; BOUND; OUTCOME; and the error address that CQRY reads
(R177). -/
structure Flag where
  state : BitVec 2
  bound : Bool
  outcome : Byte
  errAddr : DWord
  /-- identity of the operation that bound it last, 0 for none (R265) -/
  op : Nat := 0
  /-- set with the outcome won: what the commit comes after and is not performed at `.sys` (R268) -/
  won : List (Nat × Lanes) := []
  deriving DecidableEq, Repr

/-- Faulted lanes of one memory instruction, recorded for replay (R162, R342). `replay = false` for a fault that has no
replay record (R171, R318, R366, R383). -/
structure FaultRec where
  op : Nat
  syl : DWord
  lanes : Lanes
  seq : Nat
  cause : Nat
  pc : DWord
  addr : Table DWord
  data : Table (BitVec 128)
  replay : Bool
  deriving DecidableEq, Repr

/-- A loop launch's fields in a warp (R219, R283). -/
structure LoopCtl where
  iter : Nat
  trip : Nat
  body : DWord
  epi : DWord
  /-- its last bundle was a KEND -/
  closed : Bool
  deriving DecidableEq, Repr

/-- The warp's own registers: what a checkpoint of precise memory mode keeps (R346). -/
structure Regs where
  v : Table Word
  s : Table Word
  /-- pending writers by register-lane (R25): 0 full, n + 1 empty with pending operation n. Key 64·n + lane for Vn,
  12,288 + n for Sn -/
  pend : Table Nat
  p : Table Lanes
  b : Table DWord
  /-- latches: key 64·k + lane for `%va`, `%vf`, `%vd`, `%sf` -/
  latch : Table DWord
  j : Table Join
  fmt : DWord
  rd : Nat
  rstk : List (BitVec 16)
  rsdepth : Nat
  allot : Nat
  shadow : Table Word
  flight : List Result
  groups : List Group
  cur : Nat
  exited : Lanes
  wtime : Nat
  due : Nat
  deriving DecidableEq, Repr

/-- What a trap sets aside besides its save area: the level left, the holds of R138 and R172, the pending writers of
S40 to S47, V0 and V1 with the words that have been delivered to them meanwhile (log 15, DEDUCED), and the groups that a
transfer without lanes leaves in its delay bundles (R205). -/
structure Frame where
  level : Level
  holdOp : List Nat
  holdEng : Option Nat
  pend : Table Nat
  got : Table Word := []
  idle : List Nat := []
  /-- lanes of each group that are away in a call (R304, R305) -/
  away : List Lanes := []
  /-- identities of the results in flight that the save area lists -/
  seqs : List Nat
  deriving DecidableEq, Repr

/-- What a write of a special register has replaced, for the return to a checkpoint (R346): a register of the table, LBASE and LSIZE,
FEAT of a partition, whether its meter has reported; and a notice that has been taken. -/
inductive Undo where
  | sreg (key : Nat) (old : Option DWord)
  | spill (lbase : DWord) (lsize : Nat)
  | feat (part : Nat) (old : DWord)
  | reported (part : Nat) (old : Bool)
  | notice (n : Nat × Nat)
  deriving DecidableEq, Repr

/-- A checkpoint of precise memory mode (R346): the memory operation's sequence number, its bundle, the registers at its
issue, and the V (n), S (192 + n) and P (256 + n) registers written since (log 65, DEDUCED); the level, the handlers, the holds and the
single step to report. `undo`, latest first, is what SWR and OVTLD have replaced, and the notices taken, while it was the newest, and `later` the
steps that an SWR starts when it goes (log 20, DEDUCED). -/
structure Checkpoint where
  seq : Nat
  pc : DWord
  regs : Regs
  wrote : List Nat
  level : Level := .user
  handlers : List Frame := []
  holdOp : List Nat := []
  holdEng : Option Nat := none
  stepped : Option DWord := none
  undo : List Undo := []
  later : List Instr := []
  deriving DecidableEq, Repr

/-- A store that access `reader` of a warp has read, or that happens before its later accesses: operation `op`, its lanes, and the
lanes of the warp whose releases cover it (R260 item 2). -/
structure Saw where
  reader : Nat
  op : Nat
  lanes : Lanes
  acc : Lanes
  deriving DecidableEq, Repr

/-- What an agent comes after that reads the bytes of a release, or of an access after a fence (R259, R261): the place and length of the
bytes, the warp and team that wrote them, the scope, and what of the covered set has not been performed at `.sys`. -/
structure Published where
  place : Nat
  bytes : Nat
  warp : Nat
  team : Nat
  scope : Nat
  cover : List (Nat × Lanes)
  deriving DecidableEq, Repr

/-- A publication whose bytes access `reader` of a warp has read: a fence of its lanes `acc` acquires it (R261). -/
structure Heard where
  reader : Nat
  acc : Lanes
  what : Published
  deriving DecidableEq, Repr

/-- A fence that has completed: its place in issue order, lanes and scope, and what of its covered set has not been performed at `.sys`;
an access that its lanes issue after it publishes that (R261). -/
structure Fenced where
  seq : Nat
  act : Lanes
  scope : Nat
  cover : List (Nat × Lanes)
  deriving DecidableEq, Repr

structure Warp where
  r : Regs
  f : Table Flag
  lat : List Nat
  level : Level
  precise : Bool
  enabled : Lanes
  /-- bundles of the current group since the last rotation (R294) -/
  burst : Nat
  yieldHint : Bool
  /-- taken before any other warp (R293) -/
  starved : Bool
  faults : List FaultRec
  /-- causes to take at the next bundle boundary with their ID (R333) -/
  notices : List (Nat × Nat)
  /-- memory-slot instructions issued, and how many of them when a restore last resumed the warp (R356) -/
  memSeq : Nat
  memBase : Nat := 0
  /-- the task's record address (R277); none in a warp that runs no task -/
  record : Option DWord
  isTask : Bool
  tid : Word
  loop : Option LoopCtl
  stage : Option Nat
  prio : Nat
  age : Nat
  launch : Nat
  lnid : Word
  teamid : Word
  team : Nat
  wid : Nat
  part : Nat
  ctx : Nat
  lbase : DWord
  lsize : Nat
  /-- the last lane has exited (R211) -/
  ended : Bool
  /-- ended by a SYNC that suspended it (R218) -/
  suspended : Bool
  /-- halted by a trap at hypervisor level or ended by a machine check: no completion decrement (R330, R354) -/
  halted : Bool
  /-- the handlers entered and not yet left, innermost first -/
  handlers : List Frame
  /-- precise memory mode: the memory operations not yet performed, the oldest first (R346) -/
  checkpoint : List Checkpoint
  /-- pre-emption requested (R347) -/
  stop : Bool
  /-- the operations that hold later memory and engine issue (R138) -/
  holdOp : List Nat
  /-- the TSET that holds later engine issue (R172) -/
  holdEng : Option Nat
  /-- consecutive real cycles for which it has been eligible and passed over (R293) -/
  passed : Nat
  /-- warp cycles that a split has added to the due time and that are still to be charged (R204) -/
  branch : Nat := 0
  /-- its fetch missed in this real cycle (R373) -/
  missed : Bool := false
  /-- stores of others that its releases cover (R260 item 2) -/
  saw : List Saw := []
  /-- publications that it has read, and its completed fences (R261) -/
  heard : List Heard := []
  fenced : List Fenced := []
  /-- the cluster's real cycle in which its last FENCE or RFENCE completed: later issue is held to the end of it (R297) -/
  freed : Option Nat := none
  /-- the table of each lane's current or last walk (R190) -/
  walked : Table Nat := []
  /-- the stepped bundle whose single step is reported after the software trap that it raised (R366) -/
  stepped : Option DWord := none
  /-- a trap of a bundle that has issued and whose gap still passes: cause and ID as one number, the bundle, its lanes (R335) -/
  soft : Option (Nat × DWord × Lanes) := none
  /-- the bundle that wrote SKDUMP, by the value written, of each dump that has not taken place (R371) -/
  dumps : Table DWord := []
  /-- frame of its task (R277) -/
  frame : Nat := 0
  /-- a SYNC of its is held with children outstanding (R280) -/
  joining : Bool := false
  /-- parent record and, with none, team of a task that has exited, for its decrement (R211, R276) -/
  parent : Nat := 0
  root : Option Nat := none
  deriving DecidableEq, Repr

/-- The context of the bundle being issued (R42, R49). `checked`: its four syllables have passed every check. -/
structure Issue where
  checked : Bool
  pc : DWord
  imm : Word
  /-- the control operation is a NOP, so `%imm` may be named (R52) -/
  immOk : Bool
  gap : Nat
  land : Bool
  yield : Bool
  t : Nat
  trap : Option Nat
  /-- the memory access of the bundle is performed as it issues, with the free values from here on for its peer (R346; log 20, DEDUCED) -/
  atOnce : Option Nat := none
  /-- the free values from here on are what a peer answers to the reads on which the issue of the bundle depends (log 13, DESIGN CHOICE) -/
  peer : Nat := 0
  deriving DecidableEq, Repr

/-! ### Memory operations -/

inductive MemKind where
  | load | ldacq | store | strel | atom | red | fence | rfence | tileLoad | tileStore | tileAtom
  | qpost | qtake | tlsig | icinv | pref
  deriving DecidableEq, Repr

/-- A memory-slot instruction in flight (R138, R162). Lane masks say how far each lane has come: translated, performed at
`.team`, at `.die` and `.dev`, at `.sys` (R256), faulted, delivered. -/
structure MemOp where
  warp : Nat
  seq : Nat
  pc : DWord
  syl : DWord
  kind : MemKind
  size : Nat
  signed : Bool
  ro : Bool
  scalar : Bool
  /-- the lanes that perform: one for a scalar access -/
  lanes : Lanes
  /-- the active lanes at issue (R255) -/
  act : Lanes
  scope : Nat
  fn : Nat
  wide : Bool
  /-- operand code and registers of the result; 244 for none -/
  dest : Nat
  words : Nat
  level : Level
  ctx : Nat
  part : Nat
  cluster : Nat
  /-- a spill access: its words lie 256 bytes apart (R144) -/
  spill : Bool
  /-- virtual address, or tile offset, by lane -/
  addr : Table DWord
  /-- store data, or data and comparand, or payload, by lane -/
  data : Table (BitVec 128)
  /-- named physical addresses of translated lanes (R239), piece k of lane l at key 4·l + k -/
  pa : Table Nat
  xlated : Lanes
  team : Lanes
  die : Lanes
  sys : Lanes
  faulted : Lanes
  /-- cause of the faulted lanes -/
  cause : Nat
  /-- lanes that touched the data watch and are not yet reported (R366) -/
  watch : Lanes
  vals : Table (BitVec 128)
  dl : Lanes
  /-- earlier operations that a release or fence covers, with the lanes it waits for (R260) -/
  cover : List (Nat × Lanes)
  /-- order of entry into the store-gather buffer, by lane -/
  stamps : Table Nat
  /-- identity of the tile allocation -/
  handle : Nat
  takesEntry : Bool
  /-- the cluster's real cycle at issue (R253) -/
  cycle : Nat := 0
  /-- lines behind a window that lanes have asked the peer for, or that a PREF has been served; lanes of an atomic operation whose
  requests have left (R389) -/
  asked : List Nat := []
  /-- lanes of an access that is performed whole which have paid at their ports (R165, R250) -/
  paid : Lanes := 0
  deriving DecidableEq, Repr

/-- A tile handle request that waits for a checkpoint to go (R346); a DDEPTH of an allocation, in its lanes, that waits for the decks
(R192, R254); a CLGRP with its descriptor's address and its level, which reads it in a slot of its partition (R193, R291). -/
inductive HandleReq where
  | halloc (h rows rowBytes : Nat) (level1 : Bool)
  | hfree (h : Nat)
  | hqry (h : Nat)
  | depth (gen : Nat) (lanes : Lanes)
  | group (va : Nat) (level : Level)
  deriving DecidableEq, Repr

/-- A register result that arrives later and is no memory access: HALLOC and engine statuses, reads of the claim
store, MRD readouts (R169). Values by 64·k + lane for register D + k. `req` is a request that is not performed yet, with its place
in the warp's memory-slot order. -/
structure Reply where
  warp : Nat
  dest : Nat
  count : Nat
  lanes : Lanes
  scalar : Bool
  vals : Table Word
  ready : Bool
  /-- the result of a memory-slot instruction, which holds a memory entry (R138) -/
  entry : Bool
  req : Option HandleReq := none
  seq : Nat := 0
  deriving DecidableEq, Repr

/-! ### Engines -/

inductive CopyDir where
  | load | store | gather | scatter
  deriving DecidableEq, Repr

/-- A copy operation in the cluster's queue (R174 to R178, R325). `stage`: 0 issued, 1 accepted, 2 in a channel, 3 its
posted writes still to be sent. `record` is empty until acceptance. -/
structure CopyOp where
  warp : Nat
  cluster : Nat
  team : Nat
  flag : Nat
  dir : CopyDir
  shadow : Table Word
  recAddr : DWord
  lanes : Lanes
  index : Table Word
  handle : Nat
  level : Level
  ctx : Nat
  part : Nat
  stage : Nat
  record : List Byte
  after : List Nat
  /-- its place in the order of acceptance (R244) -/
  accepted : Nat := 0
  /-- lines counted so far (R252, R296) -/
  counted : List Nat := []
  /-- the bundle that issued it (R370) -/
  pc : DWord := 0
  /-- pages as translated at acceptance: the named byte of each page's first byte, or the reason of its fault (R244) -/
  pages : Table Nat := []
  noPage : Table Nat := []
  /-- elements moved, the unit of 32 bytes that has been paid for last, lines behind a window that the peer has been asked for, and
  its answers (R250, R389) -/
  moved : Nat := 0
  paid : Option Nat := none
  asked : List Nat := []
  got : Table Nat := []
  deriving DecidableEq, Repr

inductive MatKind where
  | mma | mmas | mrd | mwr | mzero | mrel
  deriving DecidableEq, Repr

/-- A matrix operation (R181 to R184), in issue order on its tile. -/
structure MatOp where
  warp : Nat
  sub : Nat
  tile : Nat
  kind : MatKind
  flag : Nat
  a : Table Word
  b : Table Word
  c : Table Word
  fmt : DWord
  ovt : DWord
  reply : Nat
  deriving DecidableEq, Repr

/-- A 34-bit or 32-bit accumulator tile with its token (R181, R328). -/
inductive Token where
  | free
  | held (warp : Nat)
  | retired
  deriving DecidableEq, Repr

structure Tile where
  elems : Table (BitVec 34)
  integer : Bool
  token : Token
  queue : List (Nat × Nat)
  deriving DecidableEq, Repr

/-- A lane's deck (R302): `low` is the number of the lowest entry on chip, `top` the number of entries. -/
structure Deck where
  low : Nat
  top : Nat
  spill : DWord
  deriving DecidableEq, Repr

/-- A traversal in flight (R187, R303, R304). A held entry is (NODE, LEVEL, CMASK, AUX) with the call it waits for:
0 enter, 1 leave, 2 prune, and the mask handed to the routine. -/
structure Held where
  node : DWord
  level : Byte
  cmask : Word
  aux : Word
  call : Nat
  mask : Word
  /-- child pointers read with the node -/
  kids : List DWord
  deriving DecidableEq, Repr

structure Walk where
  warp : Nat
  team : Nat
  cluster : Nat
  table : Nat
  handle : Nat
  spill : DWord
  flag : Nat
  lanes : Lanes
  walking : Lanes
  /-- lanes whose segment record is still to be read, with its address -/
  seed : Table DWord
  errors : Table Nat
  held : Table Held
  /-- entries still to be pushed, by lane, while the deck spills -/
  pend : Table (List (BitVec 128))
  /-- lanes inside the present call -/
  calling : Lanes
  level : Level
  ctx : Nat
  part : Nat
  deriving DecidableEq, Repr

/-- A DDEAL between its issue and its status (R191): the reserved record and its contents, the segment, what it
waits for. -/
structure Deal where
  warp : Nat
  cluster : Nat
  record : DWord
  parent : Option DWord
  seg : DWord
  body : Table Byte
  entry : DWord
  pc : DWord
  syl : DWord
  lanes : Lanes
  team : Nat
  level : Level
  ctx : Nat
  part : Nat
  after : List Nat
  deriving DecidableEq, Repr

/-- A DCUT between its issue and its result (R190): the deck handle, the lanes whose decks are still to be cut (R170) with their
record addresses and levels, the segment records to write, by lane, each with the named pieces it goes to, and whether they have been
written. -/
structure Cut where
  warp : Nat
  cluster : Nat
  team : Nat
  handle : Nat
  todo : Lanes
  addr : Table DWord
  depth : Table Word
  records : Table (List (Nat × Nat) × List Byte)
  written : Bool
  /-- tables of the lanes' current or last walks -/
  tables : Table Nat := []
  /-- the spill bases of the lanes' decks at issue -/
  spills : Table DWord := []
  pc : DWord
  syl : DWord
  level : Level
  ctx : Nat
  part : Nat
  after : List Nat
  deriving DecidableEq, Repr

/-- Entries that a DPUSH, or the verdict of a TRET, has still to push, by lane, the first to push first: they wait for the zero fill of
the allocation and for earlier operations on the decks (R189, R254, R303). -/
structure DeckPush where
  warp : Nat
  team : Nat
  handle : Nat
  entries : Table (List (BitVec 128))
  pc : DWord
  syl : DWord
  deriving DecidableEq, Repr

/-- A TSET waiting to load (R186). -/
structure TSet where
  warp : Nat
  team : Nat
  table : Nat
  addr : DWord
  pc : DWord
  syl : DWord
  lanes : Lanes
  level : Level
  after : List Nat
  deriving DecidableEq, Repr

/-! ### Teams, launches -/

/-- A tile handle's allocation (R152, R154). -/
structure Handle where
  rows : Nat
  rowBytes : Nat
  level1 : Bool
  grant : Nat
  /-- identity of this allocation -/
  gen : Nat
  bytes : Memory
  deck : Table Deck
  /-- the cluster's real cycle from which issue sees it (R254) -/
  since : Nat := 0
  /-- the status whose delivery ends the zero fill (R254) -/
  fill : Nat := 0
  deriving DecidableEq, Repr

structure Barrier where
  phase : Nat
  count : Nat
  arrived : Lanes
  /-- lanes that have arrived, by warp -/
  lanes : Table Lanes
  /-- fences whose completion an arrival waits for, by warp (R263) -/
  fences : Table (List Nat)
  /-- what the arrivals of the phase carry and is not performed at `.sys` (R263) -/
  cover : List (Nat × Lanes) := []
  deriving DecidableEq, Repr

structure Team where
  launch : Nat
  index : Word
  die : Nat
  cluster : Nat
  part : Nat
  warps : Nat
  barriers : Nat
  handles : Nat
  htab : Table Handle
  bars : Table Barrier
  tables : Table (List Byte)
  /-- warps not yet counted as exited, by warp slot number -/
  live : List Nat
  exited : Lanes
  isTask : Bool
  /-- stage of each slot, and its pending move (R284, R285) -/
  bind : Table Nat
  move : Table Nat
  open_ : Lanes
  /-- slots that may start a warp without reading the stop word (R284, R286) -/
  cleared : Lanes
  /-- warp slot number of each warp that still has its slot, by `%wid` -/
  place : Table Nat
  /-- root tasks with PARENT 0 not yet exited (R287) -/
  tasks : Nat
  /-- saved by pre-emption and not yet restored (R348) -/
  parked : Bool
  deriving DecidableEq, Repr

structure Launch where
  part : Nat
  ctx : Nat
  lnid : Word
  entry : DWord
  teams : Nat
  warps : Nat
  allot : Nat
  barriers : Nat
  handles : Nat
  lat : List Nat
  kind : Nat
  precise : Bool
  prio : Nat
  args : List Word
  lbase : DWord
  lsize : Nat
  lanes : Lanes
  compd : DWord
  body : DWord
  epi : DWord
  trip : Nat
  /-- teams dealt and teams complete by die, die shares complete -/
  dealt : Table Nat
  finished : Table Nat
  shares : List Nat
  failed : Bool
  /-- hot stages (R285) -/
  hot : List Nat
  deriving DecidableEq, Repr

/-! ### Claim store -/

/-- `id` tells a group from a later one of the same number (R312). -/
structure ClaimGroup where
  id : Nat
  part : Nat
  cross : Bool
  window : Nat
  members : List Nat
  /-- warps whose membership stands, by member number (R311) -/
  bound : Table Nat
  next : Nat
  deriving DecidableEq, Repr

/-- Who made a claim or an objection: a warp of this device with its flag or reply, or another device with its tag. -/
inductive Claimant where
  | warp (g slot : Nat)
  | device (number tag : Nat)
  deriving DecidableEq, Repr

/-- What a release waits for (R260): a warp's covered set as it stood at issue, with the place in issue order and the lanes by which
the stores that the warp comes after are found. -/
structure Release where
  warp : Nat
  seq : Nat
  act : Lanes
  cover : List (Nat × Lanes)
  /-- the slot of the warp at issue, the place that R320 orders by -/
  place : Nat := 0
  /-- the bundle and the syllable of a CLAIM (R339) -/
  pc : DWord := 0
  syl : DWord := 0
  deriving DecidableEq, Repr

/-- A claim that a key's home has taken: key, TIME, member, and the order among the member's claims of that ns (R320). -/
structure Taken where
  key : Nat
  time : Nat
  member : Nat
  order : Nat
  deriving DecidableEq, Repr

/-- State 0 open, 1 lost, 2 committed. `release`: what its commit comes after (R194, R268). -/
structure Proposal where
  group : Nat
  num : Nat
  key : Word
  value : DWord
  member : Nat
  claimant : Claimant
  ta : Nat
  state : Nat
  release : Release
  deriving DecidableEq, Repr

/-- Messages of the claim plane (R315). A group of this device is named by its number and identity; one of another device by its group
word, at or above 2^31. `away`: the request has left for another device, whose answer is to come. -/
inductive ClaimMsg where
  | claim (group id : Nat) (key : Word) (value : DWord) (member : Nat) (warp flag : Nat) (release : Release)
  | deliver (group member num : Nat) (key : Word) (value : DWord)
  | object (group id num member warp reply : Nat) (pc syl : DWord) (lanes : Lanes)
  | outcome (claimant : Claimant) (result : Nat)
  /-- a CLREAD of another device's group, with the warp's reply -/
  | read (group : Nat) (key : Word) (warp reply : Nat) (lanes : Lanes)
  /-- a CLPOLL of another device's group, which is looked up there, with the warp's reply -/
  | poll (group warp reply : Nat)
  /-- a claim that has left for another device -/
  | away (device warp flag : Nat)
  deriving DecidableEq, Repr

/-! ### The rest of the device -/

structure Cluster where
  tlb : List (Nat × Nat × Nat × DWord × Nat)
  icache : List (Nat × BitVec 256)
  ro : List (Nat × List Byte)
  recs : List (Nat × List Byte)
  /-- record addresses, newest first, each as 2^64·context + VA -/
  kitty : List Nat
  cactus : Table Nat
  barriersUsed : Nat
  handlesUsed : Nat
  spaceUsed : Nat
  walkLanes : Nat
  teamsSeen : List Nat
  /-- the number of the present stretched cycle; 0 when the clock is not stretched; 257 after a stretch of 256 cycles, until the
  FLL steps down (R361) -/
  stretch : Nat
  /-- a droop stretches the clock from the next cycle on (R361) -/
  droop : Bool
  retention : Bool
  /-- a steal request has reached the cluster in retention (R363) -/
  asked : Bool := false
  /-- tile accesses performed in the present real cycle: the cycle of their issue, their sub-core and a bank of theirs (R253) -/
  tileTaken : List (Nat × Nat × Nat) := []
  noTeams : Bool
  offline : Bool
  freq : Nat
  /-- the clock code that the cluster takes at its next cycle boundary (R362) -/
  nextFreq : Option Nat := none
  cycle : Nat
  /-- the request counters of its die at the end of its previous cycle: what SRD reads (R297) -/
  lreqRead : Nat
  rreqRead : Nat
  idle : Nat
  sketch : Table Word
  epoch : Table Nat
  deriving DecidableEq, Repr

structure SubCore where
  tiles : Table Tile
  /-- balances of the matrix, vector, special-function and memory permits at the start of the cycle, and what the bundle of
  this cycle costs (R358) -/
  permits : List Nat
  spent : List Nat
  /-- real cycles, the present one included, in which the vector unit, the special-function pipe and the matrix unit are occupied
  by an earlier bundle, and the cycles that the bundle of this cycle adds (R101, R185) -/
  busyV : Nat
  busyS : Nat
  busyM : Nat
  newV : Nat
  newS : Nat
  newM : Nat
  /-- the warp that has the issue slot in this cycle, and the warp that keeps it through a delay (R24, R292) -/
  issuer : Option Nat
  keep : Option Nat
  /-- the cycle's bundle has raised a precise cause and not issued (R373) -/
  aborted : Bool := false
  noWarps : Bool
  hist : Table Nat
  deriving DecidableEq, Repr

structure Die where
  time : Nat
  lreq : Nat
  rreq : Nat
  tlb : List (Nat × Nat × Nat × DWord × Nat)
  /-- key slots in use and pinned 4 KiB units by partition -/
  usedKeys : Table Nat
  pinned : Table Nat
  /-- undealt teams of this die's dealer: launch, team, assigned by map -/
  undealt : List (Nat × Nat × Bool)
  deriving DecidableEq, Repr

/-- A directory entry of a line (R241): dies with an S copy, and the copy operation that owns the line. -/
structure DirEntry where
  sDies : List Nat
  owner : Option Nat
  deriving DecidableEq, Repr

/-- A word of an update-only copy (R248). -/
structure Partial where
  fn : Nat
  wide : Bool
  value : DWord
  deriving DecidableEq, Repr

structure Partition where
  valid : Bool
  clusters : List (BitVec 128)
  ranges : List (Nat × Nat)
  windows : BitVec 64
  feat : DWord
  keyQuota : List Nat
  pinQuota : List Nat
  /-- mode in force, mode written for the next turn, forced (R360, R364) -/
  mode : Nat
  nextMode : Nat
  force : Bool
  emeter : Nat
  /-- the meter has been found at or above the budget since the last write of the budget (R364) -/
  reported : Bool
  deriving DecidableEq, Repr

structure Window where
  base : Nat
  size : Nat
  target : Nat
  host : Bool
  atomics : Bool
  valid : Bool
  lost : Bool
  deriving DecidableEq, Repr

structure Context where
  part : Nat
  valid : Bool
  cap : Nat
  rate : Nat
  share : Bool
  /-- sixteenths of a token missing in the bucket of each L2 port (R250) -/
  used : Table Nat
  deriving DecidableEq, Repr

/-- A posted write to a peer (R389, R391). `warp` is none for an engine's write; `copy` is the warp and the flag of the engine
operation that wrote it, `consumed` that the warp has consumed that flag (R265). -/
structure Posted where
  warp : Option Nat
  cluster : Nat
  /-- whose bucket and calendar slots it uses (R250, R291) -/
  ctx : Nat
  part : Nat
  copy : Option (Nat × Nat)
  consumed : Bool
  op : Nat
  lanes : Lanes
  window : Nat
  offset : Nat
  bytes : Table Byte
  sent : Bool
  /-- device time at its sending (R383) -/
  sentAt : Nat := 0
  /-- an engine's write: the bundle that issued the operation, and whether it is the operation's first to its line (R252, R370) -/
  pc : DWord := 0
  fresh : Bool := false
  deriving DecidableEq, Repr

/-- The kinds of answers and requests that leave the device (R384, R390, R389). A request through a window names the window's target, 256 for
the host, and the PA there: the window's base plus the offset (R239, R379). -/
inductive Outbound where
  | write (target pa : Nat) (bytes : Table Byte)
  | read (target pa bytes : Nat)
  | data (tag : Nat) (bytes : List Byte)
  | report (tag : Nat)
  | refusal (tag : Nat)
  /-- the result of another device's claim or objection (R394) -/
  | claimResult (device tag result : Nat)
  /-- what another device's CLREAD reads (R196, R394) -/
  | claimValue (device tag status num : Nat) (value : DWord)
  /-- a claim, an objection and a CLREAD for a group of another device, with the issuing warp's place (R320, R394) -/
  | claim (device group : Nat) (key : Word) (value : DWord) (warp tag : Nat)
  | objection (device group num tag : Nat)
  | claimRead (device group : Nat) (key : Word) (tag : Nat)
  /-- the lookup of a CLPOLL's group, answered as a CLREAD is (R394) -/
  | claimPoll (device group tag : Nat)
  /-- a group is destroyed: its inbox at a member device goes (R312) -/
  | groupGone (device group : Nat)
  /-- a proposal sent to a member device (R316) -/
  | proposal (device group num : Nat) (key : Word) (value : DWord)
  /-- an atomic access through a window, performed by the peer -/
  | atomic (target pa fn size data cmp : Nat)
  deriving DecidableEq, Repr

/-- A request of a peer, with its tag, or of the host (R384, R390). -/
inductive Request where
  | peerWrite (tag pa : Nat) (bytes : List (Option Byte))
  | peerRead (tag pa size : Nat)
  | peerAtomic (tag pa op size data cmp : Nat)
  | hostWrite (pa : Nat) (bytes : List Byte)
  | hostRead (tag pa size : Nat)
  deriving DecidableEq, Repr

/-- Interrupts raised: kind 0 completion, with the level or, for a failed launch, its cause (R289, R354, R391); 1 budget
(R364); 2 doorbell (R385). (log 55, DESIGN CHOICE) -/
structure Interrupt where
  kind : Nat
  lnid : Word
  detail : Nat
  deriving DecidableEq, Repr

/-- A team stopped for pre-emption (R347, R348), by team: what PCTL's writer gave, the cluster it runs on, whether its
area has been written, and from then on its warps by `%wid`, for what the area does not hold of them (R309, R311). -/
structure Preempt where
  cluster : Nat
  saved : Bool
  warps : Table Warp
  psave : DWord
  die : Nat
  part : Nat
  ctx : Nat
  /-- sub-core and tile of each operation of the matrix engine that was in flight at the save -/
  busy : List (Nat × Nat) := []
  deriving DecidableEq, Repr

/-- An allocation freed while accesses still use it (R153): its number, and the cluster's real cycle from which issue no longer
sees it. -/
structure OldHandle where
  number : Nat
  gone : Nat
  team : Nat
  cluster : Nat
  part : Nat
  h : Handle
  reply : Option Nat
  deriving DecidableEq, Repr

structure State where
  mem : Memory
  l2 : Memory
  dir : Table DirEntry
  ucopy : Table Partial
  dies : Table Die
  clusters : Table Cluster
  subs : Table SubCore
  warps : Table Warp
  teams : Table Team
  launches : Table Launch
  parts : Table Partition
  ctxs : Table Context
  windows : Table Window
  calendar : List Nat
  staged : Option (List Byte)
  lnidNext : Table Nat
  /-- suspended records (R280), as 2^64·context + VA -/
  suspended : List Nat
  /-- team of each task with PARENT 0, by record, and of each record whose taskless warp has exited (R287) -/
  roots : Table Nat
  orphans : Table Nat
  /-- entry addresses of DDEAL records and stage items whose task has issued no bundle, and whether the entry must land (R282) -/
  dealt : Table (Nat × Bool)
  mops : Table MemOp
  replies : Table Reply
  copies : Table CopyOp
  mats : Table MatOp
  walks : Table Walk
  tsets : Table TSet
  deals : Table Deal
  cuts : Table Cut
  pushes : Table DeckPush
  oldHandles : Table OldHandle
  posted : Table Posted
  published : List Published
  outbox : List Outbound
  /-- requests of peers and the host that wait, the oldest first (R384, R388, R390) -/
  requests : List Request
  cgroups : Table ClaimGroup
  proposals : Table Proposal
  committed : Table (Nat × DWord)
  keySlots : List Nat
  /-- the claims taken, latest first, of which only those of the present TIME of some die matter (R314, R320) -/
  taken : List Taken
  cmsgs : Table ClaimMsg
  /-- the claim messages below this identity have left in a claim slot (R315) -/
  carried : Nat
  inboxes : Table (List (Nat × Word × DWord))
  pollers : Table Nat
  unreachable : List Nat
  preempts : Table Preempt
  sreg : Table DWord
  /-- places that hold data with an uncorrected error, by structure (R333): register bank 4·sub-core + bank, scratchpad bank
  64·cluster + bank, a line for an L2 set or a row, tile 32·sub-core + tile, the instruction cache of a cluster; 8 the claim store of a
  die (R353) -/
  bad : List (Nat × Nat)
  /-- structures that are to be tested after an error was met (R352) -/
  tests : List (Nat × Nat)
  elog : Nat
  meas : Table (List Byte)
  bstate : Nat
  berr : Nat
  doorbell : Word
  bar2 : Nat
  staging : Memory
  flashA : Memory
  flashB : Memory
  fuseKey : List Byte
  fuseSvn : Nat
  ckpt : Option Nat
  interrupts : List Interrupt
  cur : Nat
  issue : Issue
  agenda : List Instr
  /-- steps that wait for a calendar slot of their partition (R291) -/
  owed : List Instr
  free : Nat
  nextId : Nat
  turn : Nat
  /-- device time in ns, from which the TIME of a die differs by 2 ns at most (R314) -/
  now : Nat
  deriving DecidableEq, Repr

/-! ### Faults and refusals -/

/-- The model's own stops. The part's traps are next states, not faults. -/
inductive Fault where
  /-- A syllable is executed while no warp is resident in slot `cur`: raised by the meanings of syllables. The part
  never executes a syllable without a warp. Safe. -/
  | noWarp
  deriving DecidableEq, Repr

inductive Refusal where
  /-- An arm of exec that has no meaning yet. Safe. -/
  | notModelled (mnemonic : String)
  deriving DecidableEq, Repr

/-- The outcome type of this machine. -/
abbrev Out (State' : Type) := Host.Outcome State' Fault Refusal

/-! ### Reset -/

def Join.zero : Join := { expect := 0, arrived := 0, jpc := 0, valid := false }
def Flag.zero : Flag := { state := 0, bound := false, outcome := 0, errAddr := 0 }

/-- At reset every tile is floating, zero and free (R181). -/
def Tile.reset : Tile := { elems := [], integer := false, token := .free, queue := [] }

/-- Balances equal their CAP at reset (R358, R359). -/
def SubCore.reset : SubCore :=
  { tiles := [], permits := [256, 192, 128, 128], spent := [0, 0, 0, 0], busyV := 0, busyS := 0, busyM := 0, newV := 0,
    newS := 0, newM := 0, issuer := none, keep := none, noWarps := false, hist := [] }

def Cluster.reset : Cluster :=
  { tlb := [], icache := [], ro := [], recs := [], kitty := [], cactus := [], barriersUsed := 0, handlesUsed := 0,
    spaceUsed := 0, walkLanes := 0, teamsSeen := [], stretch := 0, droop := false, retention := false, noTeams := false,
    offline := false, freq := 64, cycle := 0, lreqRead := 0, rreqRead := 0, idle := 0, sketch := [], epoch := [] }

def Die.reset : Die :=
  { time := 0, lreq := 0, rreq := 0, tlb := [], usedKeys := [], pinned := [], undealt := [] }

def DirEntry.none : DirEntry := { sDies := [], owner := Option.none }

def Partition.absent : Partition :=
  { valid := false, clusters := [], ranges := [], windows := 0, feat := 0xFF, keyQuota := [], pinQuota := [],
    mode := 0, nextMode := 0, force := false, emeter := 0, reported := false }

def Window.absent : Window :=
  { base := 0, size := 0, target := 0, host := false, atomics := false, valid := false, lost := false }

def Context.absent : Context :=
  { part := 0, valid := false, cap := 0, rate := 0, share := false, used := [] }

def Barrier.fresh : Barrier := { phase := 0, count := 0, arrived := 0, lanes := [], fences := [] }

def Issue.idle : Issue :=
  { checked := false, pc := 0, imm := 0, immOk := true, gap := 0, land := false, yield := false, t := 0, trap := none }

/-- The device after reset: nothing resident, boot state 0, registers at their reset values (R35, R58, R81, R181,
R312, R331, R358, R364, R385, R387); values that the spec does not give are those of the log. (log 2, DESIGN CHOICE; log 4, DESIGN CHOICE; log 5, DESIGN CHOICE; log 7, DESIGN CHOICE) -/
def State.reset : State :=
  { mem := [], l2 := [], dir := [], ucopy := [], dies := [], clusters := [], subs := [], warps := [], teams := [],
    launches := [], parts := [], ctxs := [], windows := [], calendar := [], staged := none, lnidNext := [],
    suspended := [], roots := [], orphans := [], dealt := [], mops := [], replies := [], copies := [], mats := [], walks := [], tsets := [], deals := [], cuts := [], pushes := [], oldHandles := [],
    posted := [], published := [], outbox := [], requests := [], cgroups := [], proposals := [], committed := [], keySlots := [], taken := [], cmsgs := [], carried := 0,
    inboxes := [], pollers := [], unreachable := [], preempts := [], sreg := [], bad := [], tests := [], elog := 0, meas := [], bstate := 0,
    berr := 0, doorbell := 0, bar2 := 0, staging := [], flashA := [], flashB := [], fuseKey := [], fuseSvn := 0,
    ckpt := none, interrupts := [], cur := 0, issue := Issue.idle, agenda := [], owed := [], free := 0, nextId := 1, turn := 0, now := 0 }

end Sys2Proof.Machine
end

