-- ==== Sys2Proof/Machine/Regs.lean ====
section
/-! DEFINITION. Lanes, warps and their registers: reading, writing, results in flight, full and empty (R10 to R29). -/

namespace Sys2Proof.Machine

/-! ### Lanes -/

def allLanes : Lanes := BitVec.allOnes 64
def laneBit (l : Nat) : Lanes := BitVec.ofNat 64 (2 ^ l)
/-- The lanes of a mask, rising. -/
def laneList (m : Lanes) : List Nat := (List.range 64).filter fun l => m.getLsbD l
/-- The lowest lane of a mask; 0 for none. -/
def lowLane (m : Lanes) : Nat := (laneList m).headD 0
def laneCount (m : Lanes) : Nat := (laneList m).length
/-- A mask from a test of each lane. -/
def maskOf (p : Nat → Bool) : Lanes :=
  (List.range 64).foldl (fun m l => if p l then m ||| laneBit l else m) 0
/-- A sorted table over the lanes of a mask, zeros left out. -/
def laneTable {α : Type} [DecidableEq α] (d : α) (m : Lanes) (f : Nat → α) : Table α :=
  (laneList m).filterMap fun l => if f l = d then none else some (l, f l)

def lowWord (v : DWord) : Word := v.extractLsb' 0 32
def highWord (v : DWord) : Word := v.extractLsb' 32 32
def joinWords (lo hi : Word) : DWord := hi ++ lo

/-! ### Places: warp slot number g = 5120·die + 64·cluster + 16·SUB + slot (R278) -/

def dieOf (g : Nat) : Nat := g / 5120
/-- The cluster as 80·die + cluster. -/
def clusterOf (g : Nat) : Nat := g / 64
def subOf (g : Nat) : Nat := g / 16
def slotOfWarp (g : Nat) : Nat := g % 16

def Level.num : Level → Nat
  | .user => 0
  | .supervisor => 1
  | .hypervisor => 2

def Level.ofNum : Nat → Level
  | 0 => .user
  | 1 => .supervisor
  | _ => .hypervisor

/-- IDENT (R36). -/
def identOf (g part : Nat) : Nat :=
  g / 16 % 4 + 4 * (g / 64 % 80) + 512 * (g / 5120) + 65536 * (part % 32)

/-! ### Parts of the state -/

def State.setWarp (s : State) (g : Nat) (w : Warp) : State := { s with warps := tput s.warps g w }
def State.modWarp (s : State) (g : Nat) (f : Warp → Warp) : State :=
  match tfind s.warps g with
  | some w => s.setWarp g (f w)
  | none => s
def State.cluster (s : State) (c : Nat) : Cluster := tget Cluster.reset s.clusters c
def State.setCluster (s : State) (c : Nat) (x : Cluster) : State := { s with clusters := tset Cluster.reset s.clusters c x }
def State.modCluster (s : State) (c : Nat) (f : Cluster → Cluster) : State := s.setCluster c (f (s.cluster c))
def State.sub (s : State) (n : Nat) : SubCore := tget SubCore.reset s.subs n
def State.setSub (s : State) (n : Nat) (x : SubCore) : State := { s with subs := tset SubCore.reset s.subs n x }
def State.modSub (s : State) (n : Nat) (f : SubCore → SubCore) : State := s.setSub n (f (s.sub n))
def State.die (s : State) (d : Nat) : Die := tget Die.reset s.dies d
def State.setDie (s : State) (d : Nat) (x : Die) : State := { s with dies := tset Die.reset s.dies d x }
def State.modDie (s : State) (d : Nat) (f : Die → Die) : State := s.setDie d (f (s.die d))
def State.part (s : State) (p : Nat) : Partition := tget Partition.absent s.parts p
def State.setPart (s : State) (p : Nat) (x : Partition) : State := { s with parts := tset Partition.absent s.parts p x }
def State.context (s : State) (c : Nat) : Context := tget Context.absent s.ctxs c
def State.window (s : State) (n : Nat) : Window := tget Window.absent s.windows n
def State.modTeam (s : State) (t : Nat) (f : Team → Team) : State :=
  match tfind s.teams t with
  | some x => { s with teams := tput s.teams t (f x) }
  | none => s
def State.modLaunch (s : State) (n : Nat) (f : Launch → Launch) : State :=
  match tfind s.launches n with
  | some x => { s with launches := tput s.launches n (f x) }
  | none => s
/-- A fresh identity. -/
def State.fresh (s : State) : Nat × State := (s.nextId, { s with nextId := s.nextId + 1 })
/-- The warp whose bundle is being issued. -/
def State.curWarp (s : State) : Option Warp := tfind s.warps s.cur

/-! ### Program counters (R10) -/

/-- Bits [55:5]; the others of a program counter read as zero. -/
def pcMask : DWord := 0x00FFFFFFFFFFFFE0

/-- The program counter n bundles after pc. -/
def pcAfter (pc : DWord) (n : Nat) : DWord := (pc + 32 * BitVec.ofNat 64 n) &&& pcMask

/-! ### Registers -/

/-- Key of Vn in lane l in the register and pending-writer tables. -/
def vKey (n l : Nat) : Nat := 64 * n + l
/-- Key of Sn in the pending-writer table. -/
def sKey (n : Nat) : Nat := 12288 + n

/-- Bits [39:0] of FMT; [63:40] are reserved and read-only (R32). -/
def fmtMask : DWord := 0x000000FFFFFFFFFF

def Regs.readV (r : Regs) (n l : Nat) : Word := tget 0 r.v (vKey n l)
def Regs.readS (r : Regs) (n : Nat) : Word := tget 0 r.s n
def Regs.readP (r : Regs) (n : Nat) : Lanes := tget 0 r.p n
def Regs.readB (r : Regs) (n l : Nat) : DWord := tget 0 r.b (vKey n l)
/-- Latch k, 0 to 3 for `%va`, `%vf`, `%vd`, `%sf` (R18). -/
def Regs.readLatch (r : Regs) (k l : Nat) : DWord := tget 0 r.latch (vKey k l)
def Regs.writeV (r : Regs) (n l : Nat) (x : Word) : Regs := { r with v := tset 0 r.v (vKey n l) x }
def Regs.writeS (r : Regs) (n : Nat) (x : Word) : Regs := { r with s := tset 0 r.s n x }
def Regs.writeP (r : Regs) (n : Nat) (m x : Lanes) : Regs :=
  { r with p := tset 0 r.p n ((r.readP n &&& ~~~m) ||| (x &&& m)) }
def Regs.writeB (r : Regs) (n l : Nat) (x : DWord) : Regs := { r with b := tset 0 r.b (vKey n l) x }
def Regs.writeLatch (r : Regs) (k l : Nat) (x : DWord) : Regs := { r with latch := tset 0 r.latch (vKey k l) x }
def Regs.pending (r : Regs) (key : Nat) : Nat := tget 0 r.pend key
def Regs.setPending (r : Regs) (key p : Nat) : Regs := { r with pend := tset 0 r.pend key p }
/-- The lanes in which Vn is empty (R25). -/
def Regs.emptyV (r : Regs) (n : Nat) (m : Lanes) : Lanes := m &&& maskOf fun l => r.pending (vKey n l) != 0
def Regs.emptyS (r : Regs) (n : Nat) : Bool := r.pending (sKey n) != 0

/-- A register becomes full: the groups that wait for a full register look again (R25, R26). -/
def Regs.fill (r : Regs) (key : Nat) : Regs :=
  { r.setPending key 0 with groups := r.groups.map fun g => if g.wait = .empty then { g with wait := .ready } else g }

/-- The register key is written by a fixed-latency result of identity `seq`: an older pending delivery is cancelled and
the register is full; a younger pending writer stays (R25). -/
def Regs.fillFixed (r : Regs) (key seq : Nat) : Regs :=
  let p := r.pending key
  if p = 0 then r else if p ≤ seq then r.fill key else r

/-- Write one lane of a destination at the result's write cycle (R17); a V register at or above ALLOT discards it
(R21). -/
def Regs.applyLane (r : Regs) (d : Dest) (seq l : Nat) (x : Word) : Regs :=
  match d with
  | .v n => if n < r.allot then (r.fillFixed (vKey n l) seq).writeV n l x else r
  | .s n => (r.fillFixed (sKey n) seq).writeS n x
  | .p n => r.writeP n (laneBit l) (if x = 0 then 0 else laneBit l)
  | .fmt =>
    { r with fmt := fmtMask &&& (if l = 0 then (r.fmt &&& 0xFFFFFFFF00000000) ||| x.zeroExtend 64
                                 else (r.fmt &&& 0x00000000FFFFFFFF) ||| (x.zeroExtend 64 <<< 32)) }
  | .none => r

/-- The write of a result to its destination. -/
def Regs.applyResult (r : Regs) (q : Result) : Regs :=
  (laneList q.lanes).foldl (fun r l => r.applyLane q.dest q.seq l (tget 0 q.vals l)) r

/-- The latch takes a result during its write cycle (R18). -/
def Regs.applyLatch (r : Regs) (q : Result) : Regs :=
  match q.latch with
  | none => r
  | some t => (laneList q.latchLanes).foldl (fun r l => r.writeLatch q.cls l (tget 0 t l)) r

/-- A result enters the list in the order of its write cycle, later ones after earlier ones of the same cycle (R19). -/
def insertFlight (q : Result) : List Result → List Result
  | [] => [q]
  | h :: t => if h.writeAt ≤ q.writeAt then h :: insertFlight q t else q :: h :: t

/-- Bring the registers to warp cycle c: latches hold what is written at the end of c or before, registers what is
written before c (R17, R18). -/
def Regs.settleList (cl cw : Nat) : List Result → Regs → Regs
  | [], r => r
  | q :: t, r =>
    let r := if q.writeAt < cl && !q.latched then r.applyLatch q else r
    if q.writeAt < cw then Regs.settleList cl cw t (r.applyResult q)
    else Regs.settleList cl cw t { r with flight := insertFlight { q with latched := q.latched || q.writeAt < cl } r.flight }

def Regs.settle (r : Regs) (c : Nat) : Regs := Regs.settleList (c + 1) c r.flight { r with flight := [] }

/-- The registers as a trap at warp time T saves them: results not written before T, and their latch contents, stay in
flight (R341). -/
def Regs.settleTrap (r : Regs) (c : Nat) : Regs := Regs.settleList c c r.flight { r with flight := [] }

/-- Put a fixed-latency result in flight: issued at t, native latency `lam`, declared latency `decl` (R17, R20). -/
def Regs.launchResult (r : Regs) (d : Dest) (cls t lam decl : Nat) (lanes : Lanes) (vals : Table Word)
    (latch : Option (Table DWord)) (latchLanes : Lanes) (half : Bool) (seq : Nat) : Regs :=
  let q : Result :=
    { dest := d, cls := cls, writeAt := t + max lam decl - 1, visAt := t + decl, lanes := lanes, vals := vals,
      latch := latch, latchLanes := latchLanes, latched := false, half := half, seq := seq }
  { r with flight := insertFlight q r.flight }

/-- Mark the lanes of Vn empty with pending writer `op` (R25, R139). -/
def Regs.emptyVLanes (r : Regs) (n : Nat) (m : Lanes) (op : Nat) : Regs :=
  (laneList m).foldl (fun r l => r.setPending (vKey n l) (op + 1)) r

def Regs.emptySReg (r : Regs) (n op : Nat) : Regs := r.setPending (sKey n) (op + 1)

/-- A delivery by a variable-latency result outlives older results still in flight to the same register and lane
(R25: the final value is the youngest writer's). -/
def Regs.outrank (r : Regs) (d : Dest) (m : Lanes) (op : Nat) : Regs :=
  { r with flight := r.flight.map fun q => if q.dest = d ∧ q.seq < op then { q with lanes := q.lanes &&& ~~~m } else q }

/-- Deliver word x to Vn in lane l if `op` is still its pending writer (R25); above ALLOT it is discarded (R21). -/
def Regs.deliverV (r : Regs) (op n l : Nat) (x : Word) : Regs :=
  if r.pending (vKey n l) = op + 1 then
    let r := r.fill (vKey n l)
    if n < r.allot then (r.outrank (.v n) (laneBit l) op).writeV n l x else r
  else r

def Regs.deliverS (r : Regs) (op n : Nat) (x : Word) : Regs :=
  if r.pending (sKey n) = op + 1 then ((r.fill (sKey n)).outrank (.s n) allLanes op).writeS n x else r

/-- Word k of register operand `code` (V or S) for `count` registers; other codes take nothing. -/
def Regs.deliverCode (r : Regs) (op code count l : Nat) (word : Nat → Word) : Regs :=
  (List.range count).foldl (fun r k =>
    if code < 192 then r.deliverV op (code + k) l (word k)
    else if code < 240 then r.deliverS op (code - 192 + k) (word k)
    else r) r

/-- A delivery also reaches the registers that a trap has set aside. (log 15, DEDUCED) -/
def Frame.deliver (fr : Frame) (op code count l : Nat) (word : Nat → Word) : Frame :=
  (List.range count).foldl (fun fr k =>
    let key := if code < 192 then vKey (code + k) l else sKey (code - 192 + k)
    if tget 0 fr.pend key = op + 1 then { fr with got := tput fr.got key (word k) } else fr) fr

/-- A delivery to a warp: its registers, those that its handlers have set aside, and those of its checkpoints (R25, R346). -/
def Warp.deliverCode (w : Warp) (op code count l : Nat) (word : Nat → Word) : Warp :=
  { w with r := w.r.deliverCode op code count l word,
           handlers := w.handlers.map fun fr => fr.deliver op code count l word,
           checkpoint := w.checkpoint.map fun c =>
             { c with regs := c.regs.deliverCode op code count l word, handlers := c.handlers.map fun fr => fr.deliver op code count l word } }

/-- Mark `count` registers from operand `code` empty in the lanes of m (R139); `%zero` marks nothing. -/
def Regs.emptyCode (r : Regs) (op code count : Nat) (m : Lanes) : Regs :=
  (List.range count).foldl (fun r k =>
    if code < 192 then r.emptyVLanes (code + k) m op
    else if code < 240 then r.emptySReg (code - 192 + k) op
    else r) r

/-- Lanes m of the register-lanes that wait for operation op wait for operation q instead. -/
def renamePend (op q : Nat) (m : Lanes) (t : Table Nat) : Table Nat :=
  t.map fun e => if e.2 = op + 1 ∧ m.getLsbD (e.1 % 64) = true then (e.1, q + 1) else e

def Warp.renamePend (w : Warp) (op q : Nat) (m : Lanes) : Warp :=
  { w with r := { w.r with pend := Machine.renamePend op q m w.r.pend },
           handlers := w.handlers.map fun fr => { fr with pend := Machine.renamePend op q m fr.pend } }

/-! ### Groups -/

def Group.none : Group := { mask := 0, pc := 0, wait := .ready, pending := Option.none }
def Regs.group (r : Regs) : Group := r.groups.getD r.cur Group.none
def Regs.setGroup (r : Regs) (g : Group) : Regs := { r with groups := r.groups.set r.cur g }
/-- Lanes of the warp that have not exited. -/
def Warp.live (w : Warp) : Lanes := w.enabled &&& ~~~w.r.exited
def Warp.flag (w : Warp) (n : Nat) : Flag := tget Flag.zero w.f n
def Warp.setFlag (w : Warp) (n : Nat) (x : Flag) : Warp := { w with f := tset Flag.zero w.f n x }
def Regs.joinReg (r : Regs) (n : Nat) : Join := tget Join.zero r.j n
def Regs.setJoin (r : Regs) (n : Nat) (x : Join) : Regs := { r with j := tset Join.zero r.j n x }
/-- Declared latency of class k (R65). -/
def Warp.declared (w : Warp) (k : Nat) : Nat := w.lat.getD k (Config.nativeLatency k)

/-- The mask of a guard (R45). -/
def Regs.guard (r : Regs) (g : BitVec 4) : Lanes :=
  match g.toNat with
  | 7 => allLanes
  | 15 => 0
  | n => if n < 7 then r.readP n else ~~~(r.readP (n - 8))

/-- The active lanes of an instruction (R45). -/
def Regs.active (r : Regs) (g1 g2 : BitVec 4) : Lanes := r.group.mask &&& r.guard g1 &&& r.guard g2

end Sys2Proof.Machine
end

