-- ==== Sys2Proof/Machine/Mem.lean ====
section
/-! DEFINITION. Memory: placement, the home's bytes, combines, page walks, TLBs, and reads and writes through them
(files 09 and 11 of spec/). A byte is named by its placement kind and PA: key kind·2^52 + PA (R239, R240). -/

namespace Sys2Proof.Machine

def kindBase : Nat := 2 ^ 52
def keyKind (k : Nat) : Nat := k / kindBase
def keyPa (k : Nat) : Nat := k % kindBase
def bitsOf (v lo n : Nat) : Nat := v / 2 ^ lo % 2 ^ n

/-- home_die (R7). -/
def homeDie (pa : Nat) : Nat :=
  (bitsOf pa 12 2 ^^^ bitsOf pa 22 2) ^^^ bitsOf pa 32 2

/-- Home of a named byte (R239); window pages have none and give 0. -/
def homeOf (k : Nat) : Nat :=
  match keyKind k with
  | 1 => bitsOf (keyPa k) 38 2
  | 3 => 0
  | _ => homeDie (keyPa k)

/-- Where a named byte lies (R239): HBM of die d at d·2^38, the second tier at 2^44. -/
def storageOf (k : Nat) : Nat :=
  let pa := keyPa k
  match keyKind k with
  | 0 => homeDie pa * 2 ^ 38 + bitsOf pa 14 24 * 2 ^ 14 + bitsOf pa 38 2 * 2 ^ 12 + pa % 2 ^ 12
  | 1 => pa % 2 ^ 40
  | _ => 2 ^ 44 + pa % 2 ^ 41

def isWindow (k : Nat) : Bool := keyKind k == 3
def lineOf (k : Nat) : Nat := k / 128

/-- Slice of a line in the L2 of its home (R241). -/
def sliceOf (line : Nat) : Nat := bitsOf (keyPa (128 * line)) 7 33 % 48

/-- Two lines lie in one set of one slice. -/
def sameSet (l m : Nat) : Bool :=
  homeOf (128 * l) == homeOf (128 * m) && sliceOf l == sliceOf m && Config.l2Set l == Config.l2Set m

/-- The byte at the home: dirty in L2, or in memory (R241). (log 30, DEDUCED) -/
def State.homeByte (s : State) (k : Nat) : Byte :=
  match tfind s.l2 k with
  | some b => b
  | none => tget Memory.blank s.mem (storageOf k)

/-- Write a byte at its home; it is dirty in L2. (log 30, DEDUCED) -/
def State.setHomeByte (s : State) (k : Nat) (b : Byte) : State := { s with l2 := tput s.l2 k b }

def State.homeBytes (s : State) (k n : Nat) : List Byte := (List.range n).map fun i => s.homeByte (k + i)
def State.setHomeBytes (s : State) (k : Nat) (bs : List Byte) : State :=
  (bs.zipIdx).foldl (fun s e => s.setHomeByte (k + e.2) e.1) s

/-- Write the dirty bytes of a line back to memory. -/
def State.writeBackLine (s : State) (line : Nat) : State :=
  (s.l2.filter fun e => lineOf e.1 == line).foldl
    (fun s e => { s with mem := tset Memory.blank s.mem (storageOf e.1) e.2, l2 := terase s.l2 e.1 }) s

/-- Lines that a slice of an L2 holds: 2 MiB of 128 bytes (R241). -/
def sliceLines : Nat := 16384

/-- A slice holds no more dirty lines than it has room for: the excess is written back, from a place that no rule names and `pick` gives
(R1, R241). -/
def State.trimSlice (s : State) (pick : Nat) (slice : Nat × Nat) : State :=
  let lines := ((s.l2.map fun e => lineOf e.1).dedup).filter fun l => homeOf (128 * l) == slice.1 && sliceOf l == slice.2
  ((lines.rotate (pick % max 1 lines.length)).take (lines.length - sliceLines)).foldl (fun s l => s.writeBackLine l) s

/-- Every slice of every die, where they could hold too much. -/
def State.trimL2 (s : State) : State :=
  if s.l2.length ≤ sliceLines then s
  else
    let slices := (s.l2.map fun e => (homeOf e.1, sliceOf (lineOf e.1))).dedup
    { slices.foldl (fun s e => s.trimSlice (Config.freeValue s.free).toNat e) s with free := s.free + 1 }

/-! ### Atomic operations (R149, R151) -/

def asSigned (w v : Nat) : Int := if 2 ^ (w - 1) ≤ v then (v : Int) - 2 ^ w else v

/-- The new value of an atomic operation at width w (R149); `.fadd` rounds once to nearest even and ignores OVT
(R151). -/
def atomicNew (fn w old c cmp : Nat) : Nat :=
  match fn with
  | 0 => (old + c) % 2 ^ w
  | 1 => if asSigned w old ≤ asSigned w c then old else c
  | 2 => min old c
  | 3 => if asSigned w c ≤ asSigned w old then old else c
  | 4 => max old c
  | 5 => old &&& c
  | 6 => old ||| c
  | 7 => old ^^^ c
  | 8 => c
  | 9 => if old = cmp then c else old
  | _ =>
    let f := if w = 64 then fp64 else fp32
    f.round .rne 1 ((f.value old).add .rne (f.value c))

/-- The identity that a partial starts at (R248): those of R122 for integers, -0 for `.fadd`. -/
def atomicIdentity (fn w : Nat) : Nat :=
  match fn with
  | 1 => 2 ^ (w - 1) - 1
  | 2 => 2 ^ w - 1
  | 3 => 2 ^ (w - 1)
  | 5 => 2 ^ w - 1
  | 10 => 2 ^ (w - 1)
  | _ => 0

/-! ### The calendar (R291, R376) -/

/-- The present calendar slot lets a partition's traffic move: its own slots, the system's for the hypervisor (R291, R376); before the
first commit no slot is owned and nothing waits. (log 67, DEDUCED) -/
def slotOpen (s : State) (part : Nat) : Bool :=
  let owner := s.calendar.getD (s.now / 2 % 256) 0xFF
  s.calendar.isEmpty || owner == part || (part == Config.hvPartition && owner == 0xFE)

/-- No write of a partition goes to memory now: its slots do not carry it (R291), or a checkpoint holds it (R388). -/
def writesShut (s : State) (part : Nat) : Bool := !slotOpen s part || s.ckpt.isSome

/-- The partition in whose slots a line moves: the one whose memory holds it, else the hypervisor's. (log 67, DEDUCED) -/
def linePart (s : State) (line : Nat) : Nat :=
  let pa := keyPa (128 * line)
  ((List.range 24).find? fun p => (s.part p).valid && (s.part p).ranges.any fun r => decide (r.1 ≤ pa) && decide (pa < r.2)).getD
    Config.hvPartition

/-! ### Update-only copies (R247 to R249) -/

def copyKey (die k : Nat) : Nat := die * 2 ^ 56 + k
def copyDie (key : Nat) : Nat := key / 2 ^ 56
def copyPlace (key : Nat) : Nat := key % 2 ^ 56

/-! ### What a warp comes after (R259, R260) -/

/-- Lanes of a store that are in the buffer: performed at `.team` and not at the home. -/
def MemOp.buffered (o : MemOp) : Lanes := if o.kind = .store ∨ o.kind = .strel then o.team &&& ~~~o.die else 0

/-- Lanes of a store that its cluster sees and the home or the peer does not have yet: those in the buffer, and those of a window
whose reports have not arrived (R256). -/
def MemOp.visible (o : MemOp) : Lanes := if o.kind = .store ∨ o.kind = .strel then o.team &&& ~~~o.sys else 0

/-- Lanes of an access, or an engine's posted write, that have not been performed at `.sys`. -/
def stillOpen (s : State) (c : Nat × Lanes) : Bool :=
  match tfind s.mops c.1 with
  | some o => decide (c.2 &&& ~~~o.sys ≠ 0)
  | none => (tfind s.posted c.1).isSome

/-- Warp g in its slot or, named above every slot, saved with its team (R348). -/
def ownerOf (s : State) (g : Nat) : Option Warp :=
  match tfind s.warps g with
  | some w => some w
  | none => if g < 2 ^ 20 then none else (tfind s.preempts ((g - 2 ^ 20) / 64)).bind fun p => tfind p.warps (g % 64)

def State.modOwner (s : State) (g : Nat) (f : Warp → Warp) : State :=
  match tfind s.warps g, tfind s.preempts ((g - 2 ^ 20) / 64) with
  | some w, _ => s.setWarp g (f w)
  | none, some p =>
    if g < 2 ^ 20 then s
    else { s with preempts := tput s.preempts ((g - 2 ^ 20) / 64) { p with warps := p.warps.map fun e => if e.1 = g % 64 then (e.1, f e.2) else e } }
  | none, none => s

/-- Accesses `acc` of warp g, at its sequence number `reader`, come after these writes; writes that are over are forgotten. -/
def State.noteStores (s : State) (g reader : Nat) (acc : Lanes) (xs : List (Nat × Lanes)) : State :=
  let xs := xs.filter (stillOpen s)
  if xs.isEmpty then s
  else
    let new := xs.map fun x => ({ reader := reader, op := x.1, lanes := x.2, acc := acc } : Saw)
    s.modOwner g fun w => { w with saw := (w.saw.filter fun e => stillOpen s (e.op, e.lanes)) ++ new }

/-- Warp h of team u lies within a scope of warp g of team t (R255). -/
def inScope (scope g t h u : Nat) : Bool :=
  if scope = 0 then g == h else if scope = 1 then t == u else if scope = 2 then dieOf g == dieOf h else true

/-- The publication's bytes meet one of the places. -/
def Published.meets (p : Published) (ps : List (Nat × Nat)) : Bool :=
  ps.any fun e => decide (p.place < e.1 + e.2) && decide (e.1 < p.place + p.bytes)

/-- Writer and reader lie within one another's scopes (R259). -/
def Published.reaches (p : Published) (scope g t : Nat) : Bool :=
  inScope p.scope p.warp p.team g t && inScope scope g t p.warp p.team

/-- What an acquire at a scope by warp g that reads the places comes after. -/
def State.before (s : State) (g t scope : Nat) (ps : List (Nat × Nat)) : List (Nat × Lanes) :=
  (s.published.filter fun p => p.meets ps && p.reaches scope g t).flatMap fun p => p.cover

/-- Lanes L of warp g acquire at a scope from the bytes at the places: what happens before is in the covered sets of their later releases
(R259, R260). -/
def State.acquireAt (s : State) (g : Nat) (L : Lanes) (scope : Nat) (ps : List (Nat × Nat)) : State :=
  match tfind s.warps g with
  | none => s
  | some w => s.noteStores g w.memSeq L (s.before g w.team scope ps)

/-- Publish what a reader of the places comes after; publications that are over go. -/
def State.publishAt (s : State) (g team scope : Nat) (cover : List (Nat × Lanes)) (ps : List (Nat × Nat)) : State :=
  let cover := cover.filter (stillOpen s)
  if cover.isEmpty then s
  else
    let new := ps.map fun e => ({ place := e.1, bytes := e.2, warp := g, team := team, scope := scope, cover := cover } : Published)
    { s with published := (s.published.filter fun p => p.cover.any (stillOpen s)) ++ new }

/-- Where a commit of a key of a claim group is published. -/
def claimPlace (group key : Nat) : Nat × Nat := (2 ^ 60 * (2 * group + 2) + key, 1)

/-! ### Timeline counters (R215, R290) -/

/-- The 8-byte counter at a named byte. -/
def State.counterAt (s : State) (k : Nat) : Nat := bytesToNat (s.homeBytes k 8)

/-- (counter - threshold) as a signed value is not negative. -/
def counterReached (c : Nat) (threshold : DWord) : Bool := !(BitVec.ofNat 64 c - threshold).msb

/-- Group i leaves its time wait; its predicate takes the outcome in every lane of the group. -/
def Regs.leaveTimeline (r : Regs) (i id : Nat) (outcome : Bool) : Regs :=
  let g := r.groups.getD i Group.none
  match g.wait with
  | .timeline _ _ _ _ p =>
    let r := { r with groups := r.groups.set i { g with wait := .ready } }
    if p < 7 then (r.outrank (.p p) g.mask id).writeP p g.mask (if outcome then g.mask else 0) else r
  | _ => r

/-- The group waits for a counter whose 8 bytes meet [k, k + n). -/
def counterOf (g : Group) (k n : Nat) : Option (Nat × DWord) :=
  match g.wait with
  | .timeline _ _ (some p) th _ => if k < p + 8 ∧ p < k + n then some (p, th) else none
  | _ => none

/-- The deadline of a time wait of warp g is over: it has passed without a release, and a later change does not release (R290). -/
def deadlinePast (s : State) (g : Nat) : Wait → Bool
  | .timeline (some d) _ _ _ _ => decide (d < (s.die (dieOf g)).time)
  | _ => false

/-- The change of a counter in [k, k + n) releases a group of warp g. -/
def counterReleases (s : State) (g k n : Nat) (q : Group) : Bool :=
  !deadlinePast s g q.wait && match counterOf q k n with
    | some (p, th) => counterReached (s.counterAt p) th
    | none => false

/-- A cluster in retention leaves it for the change of a counter that a resident warp waits for (R363). -/
def State.wakeWaiter (s : State) (g k n : Nat) (w : Warp) : State :=
  if (s.cluster (clusterOf g)).retention && w.r.groups.any fun q => (counterOf q k n).isSome then
    s.modCluster (clusterOf g) fun c => { c with asked := true }
  else s

/-- Test every waiter on a counter in [k, k + n), as at each change of it (R290); a release is an acquire of the group (R215). -/
def State.testCounters (s : State) (k n : Nat) : State :=
  s.warps.foldl (fun s e =>
    let s := s.wakeWaiter e.1 k n e.2
    let free := counterReleases s e.1 k n
    if e.2.r.groups.any free then
      let mask := (e.2.r.groups.filter free).foldl (fun m q => m ||| q.mask) 0
      let look := fun (r : Regs) (i : Nat) => if free (r.groups.getD i Group.none) then r.leaveTimeline i s.nextId true else r
      (s.acquireAt e.1 mask 4 [(k, n)]).modWarp e.1 fun w => { w with r := (List.range w.r.groups.length).foldl look w.r }
    else s) s

/-- Apply one partial at the home: value := value op partial (R249). -/
def State.applyPartial (s : State) (k : Nat) (p : Partial) : State :=
  let n := if p.wide then 8 else 4
  let old := bytesToNat (s.homeBytes k n)
  (s.setHomeBytes k (natToBytes n (atomicNew p.fn (8 * n) old p.value.toNat 0))).testCounters k n

/-- The partials of a line held by one die. -/
def State.partialsOf (s : State) (die line : Nat) : Table Partial :=
  s.ucopy.filter fun e => copyDie e.1 == die && lineOf (copyPlace e.1) == line

/-- The copy of one die is applied at the home and dropped (R248). -/
def State.evictCopy (s : State) (die line : Nat) : State :=
  (s.partialsOf die line).foldl (fun s e => { s.applyPartial (copyPlace e.1) e.2 with ucopy := terase s.ucopy e.1 }) s

/-- A combine: the partials of dies 0 to 3 in order (R249). -/
def State.combineLine (s : State) (line : Nat) : State :=
  (List.range 4).foldl (fun s d => s.evictCopy d line) s

def dirOf (s : State) (line : Nat) : DirEntry := tget DirEntry.none s.dir line
def State.setDir (s : State) (line : Nat) (e : DirEntry) : State := { s with dir := tset DirEntry.none s.dir line e }
/-- A store at the home first invalidates every S copy (R241). -/
def State.dropShared (s : State) (line : Nat) : State := s.setDir line { dirOf s line with sDies := [] }

/-- A coherent read at the home: it starts a combine (R249). -/
def State.homeRead (s : State) (k n : Nat) : State × List Byte :=
  let s := s.combineLine (lineOf k)
  (s, s.homeBytes k n)

/-- A write at the home slice: S copies are invalidated and U copies combined before it (R241). -/
def State.homeWrite (s : State) (k : Nat) (bs : List Byte) : State :=
  (((s.combineLine (lineOf k)).dropShared (lineOf k)).setHomeBytes k bs).testCounters k bs.length

/-! ### Page walks (R233 to R236) -/

/-- Kinds of access (R161). -/
inductive Acc where
  | read
  | write
  | atomic
  | fetch
  deriving DecidableEq, Repr

def Acc.num : Acc → Nat
  | .read => 0
  | .write => 1
  | .atomic => 2
  | .fetch => 3

def Acc.writes : Acc → Bool
  | .write => true
  | .atomic => true
  | _ => false

/-- Whose translation it is: context, partition, level. -/
structure Who where
  ctx : Nat
  part : Nat
  level : Level
  deriving DecidableEq, Repr

def Warp.who (w : Warp) : Who := { ctx := w.ctx, part := w.part, level := w.level }

/-- Index of the VA at a level, its entry count and page size of a leaf (R233). -/
def walkLo : Nat → Nat
  | 0 => 47
  | 1 => 38
  | 2 => 30
  | 3 => 21
  | _ => 16
def walkBits : Nat → Nat
  | 2 => 8
  | 4 => 5
  | _ => 9

/-- The table lies wholly within populated device memory (R233, R235). -/
def tableOk (pa bytes : Nat) : Bool :=
  decide (pa < 2 ^ 40) && decide (pa % 2 ^ 38 + bytes ≤ Config.hbmBytes)

/-- The page lies wholly within a MEM range of the partition (R378); the hypervisor's own pages are not limited
(log 11, DEDUCED). -/
def inRanges (s : State) (part pa size : Nat) : Bool :=
  part == Config.hvPartition || (s.part part).ranges.any fun r => decide (r.1 ≤ pa) && decide (pa + size ≤ r.2)

def dieInMask (s : State) (part d : Nat) : Bool :=
  part == Config.hvPartition || (s.part part).clusters.getD d 0 != 0

def ownsWindow (s : State) (part w : Nat) : Bool := part == Config.hvPartition || (s.part part).windows.getLsbD w

/-- Reasons that a leaf meets at a level, lowest first (R235); reason 3 is that of a fetch (R161). -/
def leafReasons (s : State) (who : Who) (acc : Acc) (level e : Nat) : List Nat :=
  let kind := bitsOf e 4 2
  let die := bitsOf e 6 2
  let addr := bitsOf e 16 36 * 2 ^ 16
  let lo := walkLo level
  let size := 2 ^ lo
  let bad :=
    decide (level < 2) || e.testBit 11 || bitsOf e 52 12 != 0 || bitsOf e 12 4 != 0 || addr % size != 0 ||
    (match kind with
     | 0 => bitsOf addr 40 12 != 0 || !(decide (addr % 2 ^ 38 + size ≤ Config.hbmBytes))
     | 1 => bitsOf addr 40 12 != 0 || bitsOf addr 38 2 != die || !(decide (addr % 2 ^ 38 + size ≤ Config.hbmBytes))
     | 2 => bitsOf addr 41 11 != 8
     | _ => false)
  let foreign :=
    match kind with
    | 1 => !dieInMask s who.part die || !inRanges s who.part addr size
    | 3 => !ownsWindow s who.part (bitsOf addr 46 6)
    | _ => !inRanges s who.part addr size
  (if acc.writes && !e.testBit 2 then [1] else []) ++ (if who.level = .user && !e.testBit 8 then [2] else []) ++
  (if acc = .fetch && !e.testBit 3 then [3] else []) ++ (if bad then [4] else []) ++ (if foreign then [6] else [])

/-- The outcome of a walk: the leaf, its level and the PA of its entry, or the reason of R235. -/
inductive WalkEnd where
  | leaf (e level entryPa : Nat)
  | fault (reason : Nat)
  deriving DecidableEq, Repr

/-- Walk from the table at `pa`; `fuel` levels remain (R233, R235). The entry nearest the root decides. Each entry is a coherent
read at its home (R249). -/
def walkFrom (who : Who) (acc : Acc) (va : Nat) : Nat → State → Nat → State × WalkEnd
  | 0, s, _ => (s, .fault 4)
  | fuel + 1, s, pa =>
    let level := 4 - fuel
    let entryPa := pa + 8 * bitsOf va (walkLo level) (walkBits level)
    let r := s.homeRead entryPa 8
    let e := bytesToNat r.2
    if !e.testBit 0 then (r.1, .fault 0)
    else if e.testBit 1 then
      match leafReasons r.1 who acc level e with
      | [] => (r.1, .leaf e level entryPa)
      | q :: _ => (r.1, .fault q)
    else
      let next := bitsOf e 12 40 * 2 ^ 12
      if level = 4 || e.testBit 11 || bitsOf e 52 12 != 0 || !tableOk next (8 * 2 ^ walkBits (level + 1)) then (r.1, .fault 4)
      else walkFrom who acc va fuel r.1 next

/-- PTBASE of a context (R238). (log 8, DESIGN CHOICE) -/
def sregGet (s : State) (key : Nat) (d : DWord) : DWord := tget d s.sreg key
def sregKey (num holder : Nat) : Nat := num * 65536 + holder
def State.setSreg (s : State) (key : Nat) (d v : DWord) : State := { s with sreg := tset d s.sreg key v }
def ptBase (s : State) (ctx : Nat) : Nat := (sregGet s (sregKey 0x140 ctx) 0).toNat

def walk (s : State) (who : Who) (acc : Acc) (va : Nat) : State × WalkEnd :=
  let root := ptBase s who.ctx
  if tableOk root 4096 then walkFrom who acc va 5 s root else (s, .fault 4)

/-- Set A, and D for a write, in the leaf (R236). -/
def State.markLeaf (s : State) (e entryPa : Nat) (acc : Acc) : State × Nat :=
  let e' := e ||| 512 ||| (if acc.writes then 1024 else 0)
  if e' = e then (s, e) else (s.homeWrite entryPa (natToBytes 8 e'), e')

/-! ### TLBs (R237): entries (context, first VA, page size log, leaf as recorded, PA of the leaf's entry) -/

abbrev TlbEntry := Nat × Nat × Nat × DWord × Nat

def tlbLookup (t : List TlbEntry) (ctx va : Nat) : Option TlbEntry :=
  t.find? fun e => e.1 == ctx && e.2.1 / 2 ^ e.2.2.1 == va / 2 ^ e.2.2.1

/-- Enter a translation; the oldest leaves a full TLB. (log 2, DESIGN CHOICE) -/
def tlbInsert (cap : Nat) (t : List TlbEntry) (e : TlbEntry) : List TlbEntry :=
  (e :: t.filter fun x => !(x.1 == e.1 && x.2.1 == e.2.1)).take cap

/-- What a translated access meets. -/
inductive Xlate where
  | ok (k : Nat)
  | fault (reason : Nat)
  | miss
  deriving DecidableEq, Repr

/-- Window w serves an access at an offset: it is valid, its link is up and the offset lies within it (R239, R379, R383). -/
def windowUp (s : State) (w off : Nat) : Bool :=
  let q := s.window w
  q.valid && !q.lost && decide (off < q.size) && (q.host || !s.unreachable.contains q.target)

/-- The first reason for which a leaf does not let an access through (R235). -/
def leafDenies (who : Who) (acc : Acc) (e : Nat) : Option Nat :=
  if acc.writes && !e.testBit 2 then some 1
  else if who.level = .user && !e.testBit 8 then some 2
  else if acc = .fetch && !e.testBit 3 then some 3
  else none

/-- The named byte of a VA under a leaf that lets the access through, with the checks of a window made at the access (R239, R379). -/
def leafPlace (s : State) (acc : Acc) (size e va : Nat) : Xlate :=
  let kind := bitsOf e 4 2
  let pa := bitsOf e 16 36 * 2 ^ 16 + va % 2 ^ size
  if kind = 3 then
    if !windowUp s (bitsOf pa 46 6) (bitsOf pa 0 46) then .fault 5
    else if acc = .atomic && !(s.window (bitsOf pa 46 6)).atomics then .fault 7
    else .ok (3 * kindBase + pa)
  else .ok (kind * kindBase + pa)

/-- Look in the cluster's TLB, then the die's (R237). -/
def tlbFind (s : State) (cl ctx va : Nat) : Option TlbEntry :=
  match tlbLookup (s.cluster cl).tlb ctx va with
  | some e => some e
  | none => tlbLookup (s.die (cl / 80)).tlb ctx va

/-- A translation reads or writes page tables: it misses the TLBs, or sets D (R236, R237). -/
def needsWalk (s : State) (cl : Nat) (who : Who) (acc : Acc) (va : Nat) : Bool :=
  match tlbFind s cl who.ctx va with
  | none => true
  | some e => acc.writes && !e.2.2.2.1.getLsbD 10

/-- Enter a leaf into the cluster's and the die's TLB. -/
def State.tlbFill (s : State) (cl : Nat) (e : TlbEntry) : State :=
  (s.modCluster cl fun c => { c with tlb := tlbInsert 1024 c.tlb e }).modDie (cl / 80)
    fun d => { d with tlb := tlbInsert 32768 d.tlb e }

/-- Translate with a walk, which fills the TLBs (R236, R237). -/
def translateWalk (s : State) (cl : Nat) (who : Who) (acc : Acc) (va : Nat) : State × Xlate :=
  match walk s who acc va with
  | (s, .fault r) => (s, .fault r)
  | (s, .leaf e level entryPa) =>
    let m := s.markLeaf e entryPa acc
    let size := walkLo level
    let s := m.1.tlbFill cl (who.ctx, va / 2 ^ size * 2 ^ size, size, BitVec.ofNat 64 m.2, entryPa)
    (s, leafPlace s acc size m.2 va)

/-- A write hits an entry recorded with D = 0: D is set in the leaf at its home and in the entry, or, where the leaf has changed
since it was read, nothing is (R236). -/
def State.setDirty (s : State) (cl : Nat) (e : TlbEntry) : State × Bool :=
  let r := s.homeRead e.2.2.2.2 8
  let leaf := e.2.2.2.1.toNat
  if bytesToNat r.2 = leaf then
    ((r.1.homeWrite e.2.2.2.2 (natToBytes 8 (leaf ||| 1024))).tlbFill cl
      (e.1, e.2.1, e.2.2.1, BitVec.ofNat 64 (leaf ||| 1024), e.2.2.2.2), true)
  else (r.1, false)

/-- Translate: through the TLBs, or with a walk where they miss or the leaf that a write must mark has changed (R236, R237). -/
def translate (s : State) (cl : Nat) (who : Who) (acc : Acc) (va : Nat) : State × Xlate :=
  match tlbFind s cl who.ctx va with
  | none => translateWalk s cl who acc va
  | some e =>
    match leafDenies who acc e.2.2.2.1.toNat with
    | some r => (s, .fault r)
    | none =>
      if acc.writes && !e.2.2.2.1.getLsbD 10 then
        match s.setDirty cl e with
        | (s, true) => (s, leafPlace s acc e.2.2.1 e.2.2.2.1.toNat va)
        | (s, false) => translateWalk s cl who acc va
      else (s, leafPlace s acc e.2.2.1 e.2.2.2.1.toNat va)

/-- 56-bit address space (R131). -/
def canonical (va : Nat) : Bool := decide (va < 2 ^ 56)

def rangesMeet (a n b m : Nat) : Bool := decide (a < b + m) && decide (b < a + n)

/-! ### The store-gather buffer (R256) -/

/-- Pieces of one lane's access: the words of a spill access, else the whole (R144). -/
def MemOp.pieces (o : MemOp) : Nat := if o.spill then (o.size + 3) / 4 else 1
def MemOp.pieceBytes (o : MemOp) : Nat := if o.spill then min 4 o.size else o.size
/-- Virtual address of piece k of lane l. -/
def MemOp.pieceVa (o : MemOp) (l k : Nat) : Nat := (tget 0 o.addr l).toNat + 256 * k
/-- The named byte j of lane l, once translated. -/
def MemOp.byteKey (o : MemOp) (l j : Nat) : Option Nat :=
  (tfind o.pa (4 * l + j / o.pieceBytes)).map (· + j % o.pieceBytes)

/-- The bytes that lane l touches, as places of publications; a tile's lie above all of memory. -/
def MemOp.places (o : MemOp) (l : Nat) : List (Nat × Nat) :=
  match o.kind with
  | .tileLoad | .tileStore | .tileAtom => [(2 ^ 60 * (2 * o.handle + 3) + (tget 0 o.addr l).toNat, o.size)]
  | _ => (List.range o.pieces).filterMap fun k => (tfind o.pa (4 * l + k)).map fun p => (p, o.pieceBytes)

/-- Lanes that count as those of lane l's access: all the active ones of a scalar access (R255). -/
def MemOp.accLanes (o : MemOp) (l : Nat) : Lanes := if o.scalar then o.act else laneBit l

/-- Lane l of a store in the cluster's buffer covers byte k: its data byte. -/
def MemOp.coverByte (o : MemOp) (l k : Nat) : Option Byte :=
  match (List.range o.size).find? (fun j => decide (o.byteKey l j = some k)) with
  | some j => some (BitVec.ofNat 8 ((tget 0 o.data l).toNat / 256 ^ j))
  | none => none

/-- Lanes `acc` of an access read the places: a later fence of them acquires what is published there (R261). -/
def State.hearAt (s : State) (o : MemOp) (acc : Lanes) (places : List (Nat × Nat)) : State :=
  let ps := s.published.filter fun p => p.warp != o.warp && p.meets places
  if ps.isEmpty then s
  else
    let new := ps.map fun p => ({ reader := o.seq, acc := acc, what := p } : Heard)
    s.modWarp o.warp fun w => { w with heard := (w.heard.filter fun h => h.what.cover.any (stillOpen s)) ++ new }

/-- Lane l reads the bytes of its access. -/
def State.hear (s : State) (o : MemOp) (l : Nat) : State := s.hearAt o (o.accLanes l) (o.places l)

/-- The later of two bytes, by their order of entry. -/
def newerByte (best : Option (Nat × Byte)) (t : Nat) (b : Byte) : Option (Nat × Byte) :=
  match best with
  | some (q, c) => if q ≤ t then some (t, b) else some (q, c)
  | none => some (t, b)

/-- Units of 32 bytes of a posted write (R250). -/
def Posted.units (p : Posted) : Nat := (p.bytes.map fun e => (p.offset + e.1) / 32).dedup.length

/-- The byte that a posted write of an engine of cluster cl, sent and not reported, holds for k. -/
def Posted.byteFor (p : Posted) (cl k : Nat) : Option Byte :=
  if p.sent ∧ p.warp.isNone ∧ p.cluster = cl ∧ isWindow k ∧ bitsOf (keyPa k) 46 6 = p.window ∧ p.offset ≤ bitsOf (keyPa k) 0 46 then
    tfind p.bytes (bitsOf (keyPa k) 0 46 - p.offset)
  else none

/-- The byte that cluster cl sees for k before the home or the peer does: that of the store lane that entered the buffer last, or of
an engine's write since (R6, R256). -/
def bufferByte (s : State) (cl k : Nat) : Option Byte :=
  let stores := s.mops.foldl (fun (best : Option (Nat × Byte)) e =>
    if e.2.cluster = cl ∧ e.2.visible ≠ 0 then
      (laneList e.2.visible).foldl (fun best l =>
        match e.2.coverByte l k with
        | none => best
        | some b => newerByte best (tget 0 e.2.stamps l) b) best
    else best) none
  (s.posted.foldl (fun best e =>
    match e.2.byteFor cl k with
    | none => best
    | some b => newerByte best e.1 b) stores).map (·.2)

/-- A byte as the cluster's warps and engines see it: the buffer first, then the home. A byte behind a window that no
rule gives is a free value (log 13, DESIGN CHOICE). -/
def clusterByte (s : State) (cl k : Nat) : Byte :=
  match bufferByte s cl k with
  | some b => b
  | none => if isWindow k then (Config.freeValue (s.free + k)).extractLsb' 0 8 else s.homeByte k

/-- Target and PA there of a named byte behind a window; 256 is the host (R239, R379). -/
def peerPlace (s : State) (k : Nat) : Nat × Nat :=
  let w := s.window (bitsOf (keyPa k) 46 6)
  (if w.host then 256 else w.target, w.base + bitsOf (keyPa k) 0 46)

/-- The request of a read of n bytes through a window (R382, R389). -/
def State.askPeer (s : State) (k n : Nat) : State :=
  { s with outbox := s.outbox ++ [.read (peerPlace s k).1 (peerPlace s k).2 n] }

/-- One read request for each line of [k, k + n) behind a window. -/
def State.askLines (s : State) (k n : Nat) : State :=
  (List.range ((k % 128 + n + 127) / 128)).foldl (fun s i =>
    let a := max k (128 * (lineOf k + i))
    s.askPeer a (min (k + n) (128 * (lineOf k + i + 1)) - a)) s

/-- A read through a window outside the steps that carry an answer: its requests leave, and whether the peer refuses it is a free value
(R390; log 13, DESIGN CHOICE). -/
def State.readPeer (s : State) (k n : Nat) : State × Bool :=
  let t := s.askLines k n
  ({ t with free := t.free + 2 ^ 56 }, (Config.freeValue (t.free + 2 ^ 55)).getLsbD 0)

/-- A coherent read by an agent of a cluster; none where a peer refuses it. -/
def State.clusterRead (s : State) (cl k n : Nat) : State × Option (List Byte) :=
  let r := if isWindow k then s.readPeer k n else (s.combineLine (lineOf k), false)
  (r.1, if r.2 then none else some ((List.range n).map fun i => clusterByte r.1 cl (k + i)))

/-! ### Reads and writes by virtual address for records -/

/-- The part of [va, va + n) within the first 64 KiB. -/
def pagePart (va n : Nat) : Nat := min n (2 ^ 16 - va % 2 ^ 16)

/-- Translate [va, va + n) page by page: the named pieces, or the first fault with its reason and address. -/
def xlatePieces (cl : Nat) (who : Who) (acc : Acc) : Nat → State → Nat → Nat →
    State × Except (Nat × Nat) (List (Nat × Nat))
  | 0, s, _, _ => (s, .ok [])
  | fuel + 1, s, va, n =>
    if n = 0 then (s, .ok [])
    else if !canonical va then (s, .error (0, va))
    else
      match translate s cl who acc va with
      | (s, .ok k) =>
        (match xlatePieces cl who acc fuel s (va + pagePart va n) (n - pagePart va n) with
         | (s, .ok ps) => (s, .ok ((k, pagePart va n) :: ps))
         | (s, .error e) => (s, .error e))
      | (s, .fault q) => (s, .error (q, va))
      | (s, .miss) => (s, .error (0, va))

def xlateRange (cl : Nat) (who : Who) (acc : Acc) (s : State) (va n : Nat) :
    State × Except (Nat × Nat) (List (Nat × Nat)) :=
  xlatePieces cl who acc (n / 2 ^ 16 + 2) s va n

/-- The named byte at an offset into the pieces. -/
def pieceKey : List (Nat × Nat) → Nat → Nat
  | [], o => o
  | (k, n) :: t, o => if o < n then k + o else pieceKey t (o - n)

/-- Lines of a range in which a predicate on the line holds for some entry of a table. -/
def linesIn (k n : Nat) (keys : List Nat) : List Nat :=
  (keys.filter fun x => lineOf k ≤ x && x ≤ lineOf (k + n - 1)).dedup

/-- Combine every U copy in a range, as a coherent read of it does. -/
def State.combineRange (s : State) (k n : Nat) : State :=
  (linesIn k n (s.ucopy.map fun e => lineOf (copyPlace e.1))).foldl (fun s l => s.combineLine l) s

/-- A store to a range first combines its U copies and invalidates its S copies (R241). -/
def State.ownRange (s : State) (k n : Nat) : State :=
  let s := s.combineRange k n
  (linesIn k n (s.dir.map (·.1))).foldl (fun s l => s.dropShared l) s

/-- Bytes of a record by offset; an offset not listed holds zero. -/
abbrev Sparse := Table Byte

def sparseOf (bs : List Byte) : Sparse := (bs.zipIdx.filter fun e => e.1 ≠ 0).map fun e => (e.2, e.1)
/-- A field of n bytes at an offset. -/
def fieldAt (off n v : Nat) : Sparse := (natToBytes n v).zipIdx.filterMap fun e => if e.1 = 0 then none else some (off + e.2, e.1)

/-- The keys in one 4 KiB granule at k whose byte is not zero. -/
def granuleKeys (s : State) (k : Nat) : List Nat :=
  let sb := storageOf k
  (s.l2.filter fun e => k ≤ e.1 && e.1 < k + 4096).map (·.1) ++
  (s.mem.filter fun e => sb ≤ e.1 && e.1 < sb + 4096).map fun e => k + (e.1 - sb)

/-- The keys of [k, k + n) that hold something, granule by granule. -/
def rangeKeys (s : State) (k n : Nat) : List Nat :=
  ((List.range ((k % 4096 + n + 4095) / 4096)).flatMap fun i => granuleKeys s (k / 4096 * 4096 + 4096 * i)).filter
    fun x => k ≤ x && x < k + n

/-- Write a byte at the home unless it reads so already. -/
def State.updateByte (s : State) (k : Nat) (b : Byte) : State := if s.homeByte k = b then s else s.setHomeByte k b

/-- Write n bytes at k: those of the table, zero elsewhere. -/
def State.putRange (s : State) (k n : Nat) (t : Sparse) : State :=
  let s := s.ownRange k n
  let s := (rangeKeys s k n).foldl (fun s x => s.updateByte x (tget 0 t (x - k))) s
  (t.foldl (fun s e => s.updateByte (k + e.1) e.2) s).testCounters k n

/-- Write the pieces at their homes; a piece behind a window leaves as one posted write (R389). `copy`: the warp and the flag of the
engine operation that writes, and its identity. -/
def State.putPieces (cl : Nat) (who : Who) (copy : Option (Nat × Nat)) (op : Nat) (s : State) : List (Nat × Nat) → Sparse → State
  | [], _ => s
  | (k, n) :: t, bs =>
    let mine := bs.filter fun e => e.1 < n
    let rest := (bs.filter fun e => n ≤ e.1).map fun e => (e.1 - n, e.2)
    if isWindow k then
      let p : Posted := { warp := none, cluster := cl, ctx := who.ctx, part := who.part, copy := copy, consumed := false, op := op, lanes := 0, window := bitsOf (keyPa k) 46 6,
                          offset := bitsOf (keyPa k) 0 46, bytes := (List.range n).map fun i => (i, tget 0 mine i),
                          sent := false }
      State.putPieces cl who copy op { s with posted := tput s.posted s.nextId p, nextId := s.nextId + 1 } t rest
    else State.putPieces cl who copy op (s.putRange k n mine) t rest

/-- Write n bytes at va, whole or, on a fault, not at all. -/
def writeVa (cl : Nat) (who : Who) (s : State) (va n : Nat) (t : Sparse) : State × Option (Nat × Nat) :=
  match xlateRange cl who .write s va n with
  | (s, .ok ps) => (s.putPieces cl who none 0 ps t, none)
  | (s, .error e) => (s, some e)

/-- A write of an engine operation with identity op, whose flag the warp binds (R265, R389). -/
def engineWriteVa (cl : Nat) (who : Who) (copy : Nat × Nat) (op : Nat) (s : State) (va n : Nat) (t : Sparse) :
    State × Option (Nat × Nat) :=
  match xlateRange cl who .write s va n with
  | (s, .ok ps) => (s.putPieces cl who (some copy) op ps t, none)
  | (s, .error e) => (s, some e)

/-- A coherent read of pieces, from offset `off` on; the offset of the first that a peer refuses. -/
def State.readPieces (s : State) : List (Nat × Nat) → Nat → State × Option Nat
  | [], _ => (s, none)
  | (k, n) :: t, off =>
    let r := if isWindow k then s.readPeer k n else (s.combineRange k n, false)
    if r.2 then (r.1, some off) else State.readPieces r.1 t (off + n)

/-- Read a record of n bytes as an agent of cluster cl; a read that a peer refuses meets reason 5 (R390). -/
def readRecord (cl : Nat) (who : Who) (s : State) (va n : Nat) : State × Except (Nat × Nat) (List Byte) :=
  match xlateRange cl who .read s va n with
  | (s, .ok ps) =>
    (match s.readPieces ps 0 with
     | (s, some off) => (s, .error (5, va + off))
     | (s, none) => (s, .ok ((List.range n).map fun i => clusterByte s cl (pieceKey ps i))))
  | (s, .error e) => (s, .error e)

/-- A read on which the issue of a bundle depends and that its operation makes again: a peer answers it alike. (log 13, DESIGN CHOICE) -/
def State.atIssue {α : Type} (s : State) (read : State → State × α) : State × α :=
  let r := read { s with free := s.issue.peer }
  ({ r.1 with free := s.free + (r.1.free - s.issue.peer) }, r.2)

/-- Field of n bytes at an offset of a record. -/
def recField (bs : List Byte) (off n : Nat) : Nat := bytesToNat ((bs.drop off).take n)

/-! ### Physical reads and writes by the hypervisor's agents: interleaved or die-local device memory, second tier -/

/-- A PA under its interleaved name, or KIND 2 in the second tier (R384, R390). -/
def paKey (pa : Nat) : Option Nat :=
  if pa < 2 ^ 40 then (if pa % 2 ^ 38 < Config.hbmBytes then some pa else none)
  else if 2 ^ 44 ≤ pa && pa < 2 ^ 44 + 2 ^ 41 then some (2 * kindBase + pa) else none

end Sys2Proof.Machine
end

