-- ==== Sys2Proof/Machine/Groups.lean ====
section
/-! DEFINITION. Divergence groups, joins, barriers, completion flags, the lanes that exit, and the records that the part
writes for itself: the error log, trace records, sketches (R29 to R31, R207, R210 to R212, R294, R355, R368, R370). -/

namespace Sys2Proof.Machine

/-! ### Special registers by holder -/

/-- Holder of a register kept per die and per partition (R331, R347, R365, R367, R375). -/
def pdHolder (part die : Nat) : Nat := part * 4 + die
def pdReg (s : State) (num part die : Nat) (d : DWord) : DWord := sregGet s (sregKey num (pdHolder part die)) d
def State.setPdReg (s : State) (num part die : Nat) (d v : DWord) : State :=
  s.setSreg (sregKey num (pdHolder part die)) d v

/-- The hypervisor's own address space (R386). -/
def hvWho : Who := { ctx := Config.hvContext, part := Config.hvPartition, level := .hypervisor }

def timeOf (s : State) (die : Nat) : Nat := (s.die die).time

/-- The cluster belongs to the partition; the hypervisor's own is cluster 79 of die 3 (R380). -/
def clusterOwned (s : State) (part cl : Nat) : Bool :=
  if part = Config.hvPartition then cl == Config.hvCluster else ((s.part part).clusters.getD (cl / 80) 0).getLsbD (cl % 80)

/-- The partition that a cluster belongs to. -/
def clusterPart (s : State) (cl : Nat) : Nat :=
  ((List.range 24).find? fun p => clusterOwned s p cl).getD Config.hvPartition

/-! ### The error log (R355) and interrupts -/

/-- Write an entry of the error log: cause or structure code, flags, IDENT, index, LNID. An entry whose write the
hypervisor's address space does not take is not written and not counted (log 14, DESIGN CHOICE). -/
def State.logError (s : State) (die code flags ident index lnid : Nat) : State :=
  let e := (sregGet s (sregKey 0x180 0) 0).toNat
  let base := bitsOf e 12 44 * 4096
  let va := base + 32 * (s.elog % 2 ^ bitsOf e 56 4)
  let t := fieldAt 0 8 (timeOf s die) ++ fieldAt 8 2 code ++ fieldAt 10 1 flags ++ fieldAt 12 4 ident ++
    fieldAt 16 8 index ++ fieldAt 24 8 lnid
  match writeVa Config.hvCluster hvWho s va 32 t with
  | (s, none) => { s with elog := (s.elog + 1) % 2 ^ 64 }
  | (s, some _) => s

/-! ### Data with an uncorrected error (R333, R352, R353) -/

/-- The cluster of a place, or the first of its die. -/
def placeCluster (kind place : Nat) : Nat :=
  match kind with
  | 0 => place / 16
  | 1 => place / 64
  | 4 => place / 128
  | 5 => place
  | 7 => place
  | 8 => 80 * place
  | _ => 80 * homeOf (128 * place)

/-- The index of a place: bank, tile, set, row address or, for a bundle from the instruction cache, its PC (R355). -/
def placeIndex (kind place pc : Nat) : Nat :=
  match kind with
  | 0 => place % 4
  | 1 => place % 64
  | 2 => Config.l2Set place
  | 3 => keyPa (128 * place)
  | 4 => place % 32
  | 5 => pc
  | 6 => keyPa (128 * place)
  | _ => place

/-- The first warp slot of a place's sub-core, for a register bank and a tile, or of its cluster: what its IDENT names. -/
def placeWarp (kind place : Nat) : Nat :=
  match kind with
  | 0 => 16 * (place / 4)
  | 4 => 16 * (place / 32)
  | _ => 64 * placeCluster kind place

/-- Log an event of a place (R355). -/
def State.logPlace (s : State) (code flags kind place pc lnid : Nat) : State :=
  let cl := placeCluster kind place
  s.logError (cl / 80 % 4) code flags (identOf (placeWarp kind place) (clusterPart s cl)) (placeIndex kind place pc) lnid

/-- Data of a place is read with an uncorrected error: the event is logged and the structure is to be tested; a line of the instruction
cache is dropped and a claim-store entry refreshed, for which R352 lists no test. (log 56, DEDUCED) -/
def State.meetError (s : State) (kind place pc lnid : Nat) : State :=
  let s := s.logPlace (if kind = 8 then 0x0BF else 0x140 + kind) 1 kind place pc lnid
  if kind = 5 ∨ kind = 8 then { s with bad := s.bad.filter fun e => e ≠ (kind, place) }
  else if (kind, place) ∈ s.tests then s
  else { s with tests := s.tests ++ [(kind, place)] }

/-- The structure with an error that holds a line of memory. -/
def badLine (s : State) (line : Nat) : Option Nat :=
  (s.bad.find? fun e => (e.1 == 2 || e.1 == 3 || e.1 == 6) && e.2 == line).map (·.1)

/-- A line waits for a test of its set or row (R352). -/
def lineTested (s : State) (line : Nat) : Bool :=
  s.tests.any fun e => ((e.1 == 3 || e.1 == 6) && e.2 == line) || (e.1 == 2 && sameSet e.2 line)

/-- The scratchpad banks of n bytes at an offset of a level 0 handle, as places of a cluster (R245). -/
def bankPlaces (cl : Nat) (h : Handle) (off n : Nat) : List Nat :=
  if h.level1 then []
  else (List.range ((off % 4 + n + 3) / 4)).map fun j =>
    let i := off / 4 + j
    64 * cl + ((i % 64) ^^^ (i / 64 % 64))

def badBank (s : State) (cl : Nat) (h : Handle) (off n : Nat) : Option Nat :=
  if s.bad.isEmpty then none else (bankPlaces cl h off n).find? fun p => s.bad.contains (1, p)

def bankTested (s : State) (cl : Nat) (h : Handle) (off n : Nat) : Bool :=
  !s.tests.isEmpty && (bankPlaces cl h off n).any fun p => s.tests.contains (1, p)

def State.interrupt (s : State) (kind : Nat) (lnid : Word) (detail : Nat) : State :=
  { s with interrupts := s.interrupts ++ [{ kind := kind, lnid := lnid, detail := detail }] }

/-! ### Regions and trace records -/

/-- Region stack entry i from the top: 0 beyond the depth, 0xFFFF where it was overwritten (R33, R35). -/
def Regs.region (r : Regs) (i : Nat) : Nat :=
  if r.rsdepth ≤ i then 0 else (r.rstk.getD i 0xFFFF).toNat

/-- RSTK (R35). -/
def Regs.rstkWord (r : Regs) : Nat :=
  r.region 0 + 2 ^ 16 * r.region 1 + 2 ^ 32 * r.region 2 + 2 ^ 48 * r.region 3

/-- A step whose accesses go in the slots of a partition takes place, or waits for one (R291; log 67, DEDUCED). -/
def State.inSlot (s : State) (part : Nat) (i : Instr) (act : State → State) : State :=
  if !writesShut s part then act { s with owed := s.owed.erase i }
  else if s.owed.contains i then s else { s with owed := s.owed ++ [i] }

/-- The warp whose write has started a step that waits for a slot. -/
def owedBy : Instr → Option Nat
  | .pctlRestore g _ => some g
  | .sketchDump g _ => some g
  | .sessionRemap g _ => some g
  | _ => none

/-- The partition of the warp in a slot. -/
def partOf (s : State) (g : Nat) : Nat := ((tfind s.warps g).map fun w => w.part).getD Config.hvPartition

/-- The partition has a trace on some die (R367). -/
def traces (s : State) (part : Nat) : Bool := (List.range 4).any fun d => (pdReg s 0x1A4 part d 0).getLsbD 60

/-- Write a trace record for warp g, if its partition traces on its die (R367, R368). -/
def State.traceRecord (s : State) (g : Nat) (w : Warp) (pc rstk kind detail : Nat) : State :=
  let d := dieOf g
  let tr := (pdReg s 0x1A4 w.part d 0).toNat
  if tr.testBit 60 then
    let head := (pdReg s 0x1A5 w.part d 0).toNat
    let va := bitsOf tr 12 44 * 4096 + 32 * (head % 2 ^ bitsOf tr 56 4)
    let t := fieldAt 0 8 (timeOf s d) ++ fieldAt 8 8 pc ++ fieldAt 16 8 rstk ++ fieldAt 24 4 (identOf g w.part) ++
      fieldAt 28 1 kind ++ fieldAt 29 1 (slotOfWarp g) ++ fieldAt 30 2 detail
    match writeVa (clusterOf g) { w.who with level := .supervisor } s va 32 t with
    | (s, none) => s.setPdReg 0x1A5 w.part d 0 (BitVec.ofNat 64 (head + 1))
    | (s, some _) => s
  else s

/-! ### Count-min sketches (R370, R371) -/

def sketchHash (r x : Nat) : Nat :=
  let a := match r with
    | 0 => 0x2F1A63C5
    | 1 => 0x4D2B9A07
    | 2 => 0x1B6E0F29
    | _ => 0x6A35D18B
  let b := match r with
    | 0 => 0x311
    | 1 => 0x5A1D
    | 2 => 0x7C43
    | _ => 0x2E9F
  (a * x + b) % (2 ^ 31 - 1) % 1024

/-- Add n to the counters of sketch k (0 or 1) for a PC; they saturate. -/
def sketchAdd (c : Cluster) (k pc n : Nat) : Cluster :=
  let x := pc / 32 % (2 ^ 31 - 1)
  (List.range 4).foldl (fun c r =>
    let i := 4096 * k + 1024 * r + sketchHash r x
    { c with sketch := tset 0 c.sketch i (BitVec.ofNat 32 (min 0xFFFFFFFF ((tget 0 c.sketch i).toNat + n))) }) c

/-- Event `code` happened n times at a PC on a cluster. -/
def State.sketchEvent (s : State) (cl code pc n : Nat) : State :=
  if n = 0 then s
  else
    (List.range 2).foldl (fun s k =>
      let ctl := (sregGet s (sregKey (0x1A8 + k) cl) 0).toNat
      if ctl.testBit 8 && bitsOf ctl 0 8 == code then s.modCluster cl fun c => sketchAdd c k pc n else s) s

/-! ### Groups -/

/-- A group stays while it has lanes, and while lanes of it are inside a call (R304). -/
def Group.stays (g : Group) : Bool := g.mask != 0 || g.away != 0

/-- Drop the empty groups; the current index follows its group, or the group after it. -/
def compactGroups (gs : List Group) (cur : Nat) : List Group × Nat :=
  let keep := gs.filter Group.stays
  let before := ((gs.take cur).filter Group.stays).length
  (keep, if before < keep.length then before else 0)

def Regs.compact (r : Regs) : Regs :=
  let c := compactGroups r.groups r.cur
  { r with groups := c.1, cur := c.2 }

/-- Index of the first group from i on, along the ring, that satisfies p. -/
def findRing (gs : List Group) (p : Group → Bool) (start : Nat) : Nat → Option Nat
  | 0 => none
  | n + 1 =>
    let i := start % gs.length
    if p (gs.getD i Group.none) then some i else findRing gs p (start + 1) n

def Group.ready (g : Group) : Bool := decide (g.wait = .ready) && g.mask != 0

/-- The current group starts: one whose join an exit has completed is due in the warp cycle after that exit (R210). -/
def Regs.startGroup (r : Regs) : Regs :=
  match r.group.soon with
  | some t => { r with due := t }
  | none => r

/-- Move to the next ready group along the ring (R294). -/
def Regs.rotate (r : Regs) : Regs :=
  match findRing r.groups Group.ready (r.cur + 1) r.groups.length with
  | some i => ({ r with cur := i }).startGroup
  | none => r

/-! ### Joins (R29, R210) -/

/-- Join j is covered: every group that waits on it merges at JPC + 32, at the place of the earliest (R210, R294). Where an exit
covers it, `soon` is the next warp cycle. -/
def Regs.completeJoin (r : Regs) (j : Nat) (soon : Option Nat := none) : Regs :=
  let q := r.joinReg j
  if q.valid && (q.expect &&& ~~~q.arrived == 0) then
    let waits := fun g : Group => decide (g.wait = .join j)
    let mask := (r.groups.filter waits).foldl (fun m g => m ||| g.mask) 0
    let r := r.setJoin j { q with valid := false }
    if mask = 0 then r
    else
      let merged : Group := { mask := mask, pc := pcAfter q.jpc 1, wait := .ready, pending := none, soon := soon,
                              last := (r.groups.filter waits).any fun g => g.last }
      let first := r.groups.findIdx waits
      let gs := r.groups.zipIdx.map fun e =>
        if e.2 = first then merged else if waits e.1 then Group.none else e.1
      let cur := if waits (r.groups.getD r.cur Group.none) then first else r.cur
      ({ r with groups := gs, cur := cur }).compact
  else r

/-- Exited lanes arrive at every valid join that expects them (R29, R211). While a handler runs, a join that only
suspended groups wait at completes at the return (R343). -/
def Regs.arriveExited (r : Regs) (m : Lanes) (handler : Bool) (soon : Option Nat) : Regs :=
  (List.range 8).foldl (fun r j =>
    let q := r.joinReg j
    if q.valid && (q.expect &&& m != 0) then
      let r := r.setJoin j { q with arrived := q.arrived ||| (q.expect &&& m) }
      if handler && !r.groups.any (fun g => decide (g.wait = .join j)) then r else r.completeJoin j soon
    else r) r

/-! ### Barriers (R212, R263) -/

def Team.bar (t : Team) (b : Nat) : Barrier := tget Barrier.fresh t.bars b
def Team.setBar (t : Team) (b : Nat) (x : Barrier) : Team := { t with bars := tset Barrier.fresh t.bars b x }

/-- Warp wid counts as arrived: all its live lanes have, and the fences it issued before have completed. -/
def Barrier.warpArrived (x : Barrier) (wid : Nat) (live : Lanes) (opsDone : Nat → Bool) : Bool :=
  let l := tget 0 x.lanes wid
  l != 0 && (live &&& ~~~l == 0) && (tget [] x.fences wid).all opsDone

/-- A fence is complete when it is no longer in flight. -/
def opDone (s : State) (id : Nat) : Bool := (tfind s.mops id).isNone

/-- Fences of warp g in flight. -/
def openFences (s : State) (g : Nat) : List Nat :=
  s.mops.filterMap fun e => if e.2.warp = g ∧ e.2.kind = .fence then some e.1 else none

/-- The exited warps of a team that count as arrived: their fences have completed (R212, R263). -/
def exitedWarps (s : State) (t : Team) : Lanes :=
  t.exited &&& maskOf fun wid => match tfind t.place wid with
    | some g => (openFences s g).isEmpty
    | none => true

/-- The mask of arrived warps of a team at barrier b. -/
def arrivedWarps (s : State) (tid : Nat) (t : Team) (b : Nat) : Lanes :=
  t.live.foldl (fun m g =>
    match tfind s.warps g with
    | some w => if w.team = tid ∧ (t.bar b).warpArrived w.wid w.live (opDone s) then m ||| laneBit w.wid else m
    | none => m) ((t.bar b).arrived)

/-- The wait of a group at a barrier whose phase has completed. -/
def phaseOver (t : Team) : Wait → Bool
  | .barrier b p => decide ((t.bar b).phase ≠ p)
  | _ => false

/-- The groups that wait at a barrier whose phase has completed become ready, in the cycle after (R212). -/
def Warp.releaseBarriers (w : Warp) (t : Team) : Warp :=
  let gs := w.r.groups.map (fun g => if phaseOver t g.wait then { g with wait := Wait.ready } else g)
  { w with r := { w.r with groups := gs } }

def State.releaseBarriers (s : State) (g : Nat) : State :=
  s.modWarp g fun w => match tfind s.teams w.team with
    | some t => w.releaseBarriers t
    | none => w

/-- What the arrival of warp g carries: its stores that the team can observe, and what its completed fences cover (R263). -/
def carried (s : State) (g : Nat) (w : Warp) : List (Nat × Lanes) :=
  (s.mops.filterMap fun e => if e.2.warp = g ∧ e.2.visible ≠ 0 then some (e.1, e.2.visible) else none) ++
    (w.fenced.filter fun f => decide (1 ≤ f.scope)).flatMap fun f => f.cover

/-- What the warps of a mask carry to a barrier of team tid. -/
def carriedBy (s : State) (tid : Nat) (t : Team) (m : Lanes) : List (Nat × Lanes) :=
  t.live.flatMap fun g => match tfind s.warps g with
    | some w => if w.team = tid ∧ m.getLsbD w.wid then carried s g w else []
    | none => []

/-- Complete the phase of barrier b of a team if its count is reached (R212): the arrived warps and the exited ones that
have not arrived number at least n. Its waiters become ready when the cycle is over. What the arrivals carry happens before what any
warp of the team issues later (R263). -/
def State.checkBarrier (s : State) (tid b : Nat) : State :=
  match tfind s.teams tid with
  | none => s
  | some t =>
    let x := t.bar b
    let arr := arrivedWarps s tid t b
    let n := laneCount (arr ||| exitedWarps s t)
    let cover := x.cover ++ carriedBy s tid t (arr &&& ~~~x.arrived)
    if x.count != 0 && decide (x.count ≤ n) then
      let cover := cover ++ carriedBy s tid t (exitedWarps s t &&& ~~~arr)
      let s := { s with teams := tput s.teams tid (t.setBar b
        { phase := x.phase + 1, count := 0, arrived := 0, lanes := [], fences := [] }) }
      t.live.foldl (fun s g =>
        match tfind s.warps g with
        | some w => if w.team = tid then s.noteStores g w.memSeq allLanes cover else s
        | none => s) s
    else { s with teams := tput s.teams tid (t.setBar b { x with arrived := arr, cover := cover }) }

def State.checkBarriers (s : State) (tid : Nat) : State :=
  match tfind s.teams tid with
  | none => s
  | some t => (t.bars.map (·.1)).foldl (fun s b => s.checkBarrier tid b) s

/-! ### Completion flags (R30, R31) -/

/-- Identity of the operation that a flag of warp g stands for. -/
def flagOp (s : State) (g n : Nat) : Nat := ((tfind s.warps g).map fun w => (w.flag n).op).getD 0

/-- Warp g consumes flags (R265): the posted writes of the engine operations that they stand for belong to what a later
release covers, and a claim won is acquired from (R268). -/
def State.consumeFlags (s : State) (g : Nat) (m : Nat → Bool) : State :=
  let t := { s with posted := s.posted.map (fun (e : Nat × Posted) => (e.1, match e.2.copy with
      | some (w, n) => if w = g ∧ m n ∧ (flagOp s g n = 0 ∨ e.2.op = flagOp s g n) then { e.2 with consumed := true } else e.2
      | none => e.2)) }
  match tfind s.warps g with
  | none => t
  | some w => t.noteStores g w.memSeq allLanes (((List.range 8).filter m).flatMap fun n => (w.flag n).won)

/-- The flag wait of a group ends. -/
def flagWaitOver (w : Warp) (x : Wait) : Bool :=
  match x with
  | .flag m => (List.range 8).all (fun n => !m.getLsbD n || (w.flag n).state != 0)
  | .rest n => (w.flag n).state != 0
  | _ => false

/-- The flags that the groups whose wait ends consume. -/
def flagsConsumed (w : Warp) (n : Nat) : Bool :=
  w.r.groups.any fun g => flagWaitOver w g.wait && (match g.wait with
    | .flag m => m.getLsbD n
    | .rest k => k == n
    | _ => false)

/-- Groups that wait on flags become ready when they have left clear (R213, R214). -/
def Warp.testFlags (w : Warp) : Warp :=
  let look := fun (g : Group) => if flagWaitOver w g.wait then { g with wait := Wait.ready } else g
  { w with r := { w.r with groups := w.r.groups.map look } }

/-- Test every flag wait of warp g: the groups whose wait ends consume their flags. -/
def State.testFlags (s : State) (g : Nat) : State :=
  match tfind s.warps g with
  | none => s
  | some w => (s.consumeFlags g (flagsConsumed w)).modWarp g Warp.testFlags

/-- Bind a flag at issue to the operation with identity op (R31). The error address is that of the last copy operation (R177). -/
def Warp.bindFlag (w : Warp) (n op : Nat) : Warp :=
  w.setFlag n { state := 0, bound := true, outcome := 0, errAddr := (w.flag n).errAddr, op := op }

/-- Warp `%wid` of a parked team is named by a number above every warp slot (R348). -/
def parkedWarp (tid wid : Nat) : Nat := 2 ^ 20 + 64 * tid + wid

/-- A completion for a saved warp goes to the flag word of its team's area (R348, R350). -/
def State.parkedFlag (s : State) (g n state outcome : Nat) : State :=
  if g < 2 ^ 20 then s
  else
    match tfind s.preempts ((g - 2 ^ 20) / 64) with
    | none => s
    | some p =>
      let who : Who := { ctx := p.ctx, part := p.part, level := .supervisor }
      (writeVa p.cluster who s (p.psave.toNat + 0x44000 + 0x12000 * (g % 64) + 0x4B00 + 2 * n) 2
        (fieldAt 0 2 (state + 256 * outcome))).1

/-- An operation completes on its flag: state 1 set or 2 error, with its outcome (R30, R31). -/
def State.finishFlag (s : State) (g n state outcome : Nat) : State :=
  if (tfind s.warps g).isNone then s.parkedFlag g n state outcome
  else
    (s.modWarp g fun w =>
      w.setFlag n { w.flag n with state := BitVec.ofNat 2 state, bound := false, outcome := BitVec.ofNat 8 outcome }).testFlags g

/-- The error address that CQRY gives for a flag (R177). -/
def State.setErrAddr (s : State) (g n : Nat) (va : DWord) : State :=
  s.modWarp g fun w => w.setFlag n { w.flag n with errAddr := va }

/-! ### Accumulator tokens (R181, R328) -/

def SubCore.tile (x : SubCore) (t : Nat) : Tile := tget Tile.reset x.tiles t
def SubCore.setTile (x : SubCore) (t : Nat) (v : Tile) : SubCore := { x with tiles := tset Tile.reset x.tiles t v }

/-- An operation of warp g on tile t of sub-core n is still in flight. -/
def tileBusy (s : State) (g n t : Nat) : Bool :=
  s.mats.any fun e => e.2.warp == g && e.2.sub == n && e.2.tile == t

/-- The token passes to the first waiting warp, whose flag is set (R181); with none waiting the tile is free. A retired tile stays
retired (R327). -/
def State.passToken (s : State) (n t : Nat) : State :=
  let x := (s.sub n).tile t
  match x.token, x.queue with
  | .retired, _ => s
  | _, [] => s.modSub n fun c => c.setTile t { x with token := .free }
  | _, (g, f) :: q =>
    (s.modSub n fun c => c.setTile t { x with token := .held g, queue := q }).finishFlag g f 1 0

/-- Warp g has issued a release of the tile that is still in flight. -/
def releasing (s : State) (g n t : Nat) : Bool :=
  s.mats.any fun e => e.2.warp == g && e.2.sub == n && e.2.tile == t && e.2.kind == .mrel

/-- Release a warp's tokens as MREL would, at its exit (R181): a tile with work of the warp in flight keeps its token
until that is done, one that it already releases is left to that release, and its waiting requests are withdrawn. -/
def State.releaseTokens (s : State) (g : Nat) : State :=
  let n := subOf g
  (List.range 32).foldl (fun s t =>
    let x := (s.sub n).tile t
    let s := if x.queue.any (fun e => e.1 == g) then
        s.modSub n fun c => c.setTile t { x with queue := x.queue.filter fun e => e.1 ≠ g } else s
    if x.token = .held g && !releasing s g n t then
      (if tileBusy s g n t then
        let m : MatOp := { warp := g, sub := n, tile := t, kind := .mrel, flag := 0, a := [], b := [], c := [], fmt := 0,
                           ovt := 0, reply := 0 }
        { s with mats := tput s.mats s.nextId m, nextId := s.nextId + 1 }
       else s.passToken n t)
    else s) s

/-! ### Records of tasks (R276, R277) -/

/-- A record's key in the part's own tables: its context and VA. -/
def recKey (ctx va : Nat) : Nat := ctx * 2 ^ 64 + va
def recCtx (key : Nat) : Nat := key / 2 ^ 64
def recVa (key : Nat) : Nat := key % 2 ^ 64

/-- Return an allocation of a partition's cluster. -/
def State.cactusFree (s : State) (part a : Nat) : State :=
  match s.clusters.find? fun e => clusterOwned s part e.1 && (tfind e.2.cactus a).isSome with
  | some e => s.modCluster e.1 fun c => { c with cactus := terase c.cactus a }
  | none => s

/-- A counter of n bytes through the warp's translation; a fault reads as 0. -/
def readField (s : State) (cl : Nat) (who : Who) (va n : Nat) : State × Nat :=
  match readRecord cl who s va n with
  | (s, .ok bs) => (s, bytesToNat bs)
  | (s, .error _) => (s, 0)

/-- A task's warp has lost its last lane (R211, R276): its own allocation is free, and what its end owes stays with the warp. -/
def State.leaveTask (s : State) (g : Nat) : State :=
  match tfind s.warps g with
  | none => s
  | some w =>
    match w.record with
    | none => s
    | some r =>
      if !w.isTask then s
      else
        let p := readField s (clusterOf g) w.who (r.toNat + 0x10) 8
        let key := recKey w.ctx r.toNat
        let s := { p.1.cactusFree w.part r.toNat with roots := terase p.1.roots key, dealt := terase p.1.dealt key }
        s.modWarp g fun w => { w with parent := p.2, root := tfind p.1.roots key }

/-! ### Exit (R211) -/

/-- The membership of warp g in claim groups lapses (R311), and it is no longer the last poller of one (R195). -/
def State.lapseMember (s : State) (g : Nat) : State :=
  { s with cgroups := s.cgroups.map fun e => (e.1, { e.2 with bound := e.2.bound.filter fun b => b.2 ≠ g }),
           pollers := s.pollers.filter fun e => e.2 ≠ g }

/-- A warp has ended: lanes that faulted will not be performed, and an operation of which nothing else is left is gone
(log 21, DEDUCED). -/
def State.dropFaulted (s : State) (g : Nat) : State :=
  { s with mops := s.mops.filterMap fun e =>
      let o := e.2
      if o.warp ≠ g ∨ o.faulted = 0 then some e
      else if o.lanes &&& ~~~(o.sys ||| o.faulted) = 0 then none
      else some (e.1, { o with faulted := 0, team := o.team ||| o.faulted, die := o.die ||| o.faulted, sys := o.sys ||| o.faulted,
                               dl := o.dl ||| o.faulted }) }

/-- Lanes m of a warp leave: where they are the last that a barrier waits for, the fences issued before count (R212, R263). -/
def State.exitFences (s : State) (g : Nat) (w : Warp) (m : Lanes) : State :=
  let open_ := openFences s g
  let add := fun (x : Barrier) =>
    let l := tget 0 x.lanes w.wid
    if l ≠ 0 ∧ w.live &&& ~~~l ≠ 0 ∧ w.live &&& ~~~m &&& ~~~l = 0 then
      { x with fences := tset [] x.fences w.wid (tget [] x.fences w.wid ++ open_) } else x
  if open_.isEmpty then s else s.modTeam w.team fun t => { t with bars := t.bars.map fun e => (e.1, add e.2) }

/-- Lanes of warp g exit: they leave their groups, arrive at joins and barriers, and with the last of them the warp
ends. `soon` is the next warp cycle, where their EXIT issues. -/
def State.exitLanes (s : State) (g : Nat) (m : Lanes) (soon : Option Nat := none) : State :=
  match tfind s.warps g with
  | none => s
  | some w =>
    let gs := w.r.groups.map (fun q => { q with mask := q.mask &&& ~~~m, away := q.away &&& ~~~m })
    let r := ({ w.r with exited := w.r.exited ||| m, groups := gs }).compact.arriveExited m (!w.handlers.isEmpty) soon
    let s := s.exitFences g w m
    let w := { w with r := r }
    let last := decide (w.live = 0#64)
    let s := s.setWarp g { w with ended := w.ended || last }
    let s := if last then ((((s.dropFaulted g).releaseTokens g).lapseMember g).leaveTask g).modTeam w.team (fun t => { t with exited := t.exited ||| laneBit w.wid })
      else s
    s.checkBarriers w.team

end Sys2Proof.Machine
end

