-- ==== Sys2Proof/Machine/Ops.lean ====
section
/-! DEFINITION. Taking a trap and returning from one (R330 to R344, R356, R393): the shared operations over the save
area. -/

namespace Sys2Proof.Machine

/-- What a trap reports: cause, ID, PC, lanes, the address of the lowest of them, the 3-bit reasons of R208. -/
structure TrapInfo where
  cause : Nat
  id : Nat
  pc : Nat
  lanes : Lanes
  va : Nat
  reasons : Nat
  deriving DecidableEq, Repr

def causeClass (c : Nat) : Nat := c / 32

/-- The handler level of R330; none at hypervisor level. -/
def handlerLevel (from_ : Level) (cls : Nat) : Option Level :=
  match from_ with
  | .hypervisor => none
  | .supervisor => some .hypervisor
  | .user => if cls = 10 then some .hypervisor else some .supervisor

/-- Base of the save area of warp g for a handler level (R331). -/
def saveBase (s : State) (g part : Nat) (tgt : Level) : Nat :=
  let num := if tgt = .hypervisor then 0x173 else 0x171
  bitsOf (pdReg s num part (dieOf g) 0).toNat 12 44 * 4096 + 0xB000 * (g % 5120)

def vectorBase (s : State) (g part : Nat) (tgt : Level) : Nat :=
  let num := if tgt = .hypervisor then 0x172 else 0x170
  bitsOf (pdReg s num part (dieOf g) 0).toNat 9 47 * 512

/-! ### Latch entries (R341) -/

structure LatchRec where
  kind : Nat
  cls : Nat
  dest : Nat
  wr : Nat
  vis : Nat
  half : Bool
  lanes : Lanes
  vals : Table Word
  deriving DecidableEq, Repr

/-- Operand code of a destination; the low register of a pair for a high half. -/
def destCode (d : Dest) (half : Bool) : Nat :=
  match d with
  | .v n => if half then n - 1 else n
  | .s n => 192 + (if half then n - 1 else n)
  | .p n => n
  | .fmt => 0
  | .none => 244

/-- The entry of a result in flight at warp time T. -/
def latchOfResult (T : Nat) (q : Result) : LatchRec :=
  match q.dest with
  | .p n => { kind := 1, cls := q.cls % 4, dest := n, wr := q.writeAt - T + 1, vis := q.visAt - T, half := false,
              lanes := q.lanes, vals := q.vals }
  | .fmt => { kind := 3, cls := 0, dest := 0, wr := q.writeAt - T + 1, vis := 0, half := false, lanes := 3,
              vals := q.vals }
  | d => { kind := if q.cls = 4 then 2 else 0, cls := if q.cls = 4 then 0 else q.cls, dest := destCode d q.half,
           wr := q.writeAt - T + 1, vis := q.visAt - T, half := q.half, lanes := q.lanes, vals := q.vals }

/-- The two entries of a pending transfer: its lane targets in two halves. -/
def latchOfTransfer (x : Transfer) : List LatchRec :=
  let e := fun half => { kind := 4, cls := 0, dest := 0, wr := x.left, vis := 0, half := half, lanes := x.lanes,
                         vals := laneTable 0 x.lanes fun l => (if half then highWord else lowWord) (tget 0 x.target l) : LatchRec }
  [e false, e true]

/-- The hold entries of a latch that is nonzero in some lane (R341, R356). `%vd` takes two halves. -/
def latchHolds (r : Regs) (k : Nat) : List LatchRec :=
  let vals := fun half => laneTable 0 allLanes fun l => (if half then highWord else lowWord) (r.readLatch k l)
  let e := fun half => { kind := 5, cls := k, dest := 240 + k, wr := 1, vis := 0, half := half, lanes := allLanes,
                         vals := vals half : LatchRec }
  if (vals false).isEmpty && (vals true).isEmpty then [] else if k = 2 then [e false, e true] else [e false]

/-- The entry comes from the control slot; results and latch holds come from the vector slot. -/
def LatchRec.ofControl (x : LatchRec) : Bool := x.kind == 2 || x.kind == 3 || x.kind == 4

/-- Insert by WR, by slot within equal WR (R341). -/
def insertRec (x : LatchRec) : List LatchRec → List LatchRec
  | [] => [x]
  | h :: t =>
    if h.wr < x.wr || (h.wr == x.wr && (!h.ofControl || x.ofControl)) then h :: insertRec x t else x :: h :: t

/-- Insert a result in flight in the order of its entry. -/
def insertSaved (q : Result) : List Result → List Result
  | [] => [q]
  | h :: t =>
    if h.writeAt < q.writeAt || (h.writeAt == q.writeAt && (h.cls != 4 || q.cls == 4)) then h :: insertSaved q t else q :: h :: t

/-- The identities of the results in flight, in the order of their entries. -/
def Regs.savedSeqs (r : Regs) : List Nat := (r.flight.foldl (fun l q => insertSaved q l) []).map fun q => q.seq

/-- All the latch entries of a warp at T, in order (R341, R356). -/
def latchRecs (r : Regs) (T : Nat) : List LatchRec :=
  let holds := (List.range 4).flatMap fun k => latchHolds r k
  let results := r.flight.map (latchOfResult T)
  let transfers := r.groups.flatMap fun g => match g.pending with
    | some x => latchOfTransfer x
    | none => []
  ((holds ++ results ++ transfers).foldl (fun acc x => insertRec x acc) []).take 64

def latchHead (x : LatchRec) : Nat :=
  x.kind + 16 * x.cls + 256 * x.dest + 2 ^ 16 * (x.wr % 256) + 2 ^ 24 * (x.vis % 256) +
    2 ^ 32 * (if x.half then 1 else 0) + 2 ^ 64 * x.lanes.toNat

def latchBytes (off : Nat) (x : LatchRec) : Sparse :=
  fieldAt off 16 (latchHead x) ++ x.vals.flatMap fun e => fieldAt (off + 16 + 4 * e.1) 4 e.2.toNat

/-! ### Group table (R340) -/

def groupWords (g : Group) : Nat × Nat × Nat × Nat :=
  let w0 := fun st pred yld => g.pc.toNat + 2 ^ 56 * st + 2 ^ 59 * pred + (if yld then 2 ^ 62 else 0)
  match g.wait with
  | .ready => (w0 0 0 false, 0, 0, 0)
  | .empty => (w0 1 0 false, 0, 0, 0)
  | .join j => (w0 2 0 false, j, 0, 0)
  | .flag m => (w0 3 0 false, m.toNat, 0, 0)
  | .rest n => (w0 3 0 true, n, 0, 0)
  | .barrier b p => (w0 4 0 false, b, p, 0)
  | .sleep t => (w0 5 7 false, t, 0, 0)
  | .timeline d va _ th pr => (w0 5 pr false, d.getD (2 ^ 64 - 1), va.toNat, th.toNat)

def groupBytes (off : Nat) (g : Group) : Sparse :=
  let w := groupWords g
  fieldAt off 8 w.1 ++ fieldAt (off + 8) 8 g.mask.toNat ++ fieldAt (off + 16) 8 w.2.1 ++ fieldAt (off + 24) 8 w.2.2.1 ++
    fieldAt (off + 32) 8 w.2.2.2

/-! ### Replay records (R342) -/

/-- A record; its sequence number counts from the warp's start or last resumption (R356). -/
def replayBytes (off memBase : Nat) (f : FaultRec) : Sparse :=
  fieldAt off 8 f.syl.toNat ++ fieldAt (off + 8) 8 f.lanes.toNat ++ fieldAt (off + 0x10) 8 (f.seq - memBase) ++
    fieldAt (off + 0x18) 2 f.cause ++ f.addr.flatMap (fun e => fieldAt (off + 0x20 + 8 * e.1) 8 e.2.toNat) ++
    f.data.flatMap fun e => fieldAt (off + 0x220 + 16 * e.1) 16 e.2.toNat

/-! ### The save area (R337 to R339) -/

/-- Index of the group that issued the warp's last bundle (R340). -/
def Regs.lastGroup (r : Regs) : Nat := (r.groups.findIdx? fun g => g.last).getD r.cur

/-- The header and group table of a warp at T, with the latch entries (R338, R340, R341). -/
def saveHead (r : Regs) (from_ tgt : Level) (T time replay : Nat) : Sparse :=
  let recs := latchRecs r T
  let latv := (List.range 4).foldl (fun a k => if recs.any (fun x => x.kind == 5 && x.cls == k) then a + 2 ^ k else a) 0
  fieldAt 0 8 (1 + 2 ^ 8 * from_.num + 2 ^ 10 * tgt.num + 2 ^ 12 * latv + 2 ^ 16 * recs.length + 2 ^ 24 * replay +
    2 ^ 29 * r.groups.length + 2 ^ 34 * r.lastGroup) ++
  fieldAt 8 8 T ++ fieldAt 0x10 8 r.fmt.toNat ++ fieldAt 0x18 8 (r.rd + 256 * r.allot) ++ fieldAt 0x20 8 time

def saveTail (r : Regs) (T : Nat) : Sparse :=
  (latchRecs r T).zipIdx.flatMap fun e => latchBytes (0x600 + 272 * e.2) e.1

def faultBytes (i : TrapInfo) : Sparse :=
  fieldAt 0x40 2 i.cause ++ fieldAt 0x44 4 i.id ++ fieldAt 0x48 8 i.pc ++ fieldAt 0x50 8 i.lanes.toNat ++
    fieldAt 0x58 8 i.va ++ fieldAt 0x60 24 i.reasons

def groupTable (r : Regs) : Sparse := (r.groups.zipIdx).flatMap fun e => groupBytes (0x80 + 48 * e.2) e.1

/-- S40 to S47, the P6 mask, V0 and V1. -/
def scratchBytes (r : Regs) : Sparse :=
  ((List.range 8).flatMap fun i => fieldAt (0x380 + 4 * i) 4 (r.readS (40 + i)).toNat) ++
  fieldAt 0x3A0 8 (r.readP 6).toNat ++
  (List.range 2).flatMap fun n => (List.range 64).flatMap fun l => fieldAt (0x400 + 256 * n + 4 * l) 4 (r.readV n l).toNat

/-- The records that a deferred fault's trap lists: one per instruction, in issue order, 16 at most. -/
def replayRecs (w : Warp) : List FaultRec := (w.faults.filter fun f => f.replay).take 16

/-- An uncorrected error in the memory of the pieces: its structure, its line and its offset. -/
def badPiece (s : State) : List (Nat × Nat) → Nat → Option (Nat × Nat × Nat)
  | [], _ => none
  | (k, n) :: t, off =>
    match s.bad.find? fun e => (e.1 == 2 || e.1 == 3 || e.1 == 6) && rangesMeet (128 * e.2) 128 k n with
    | some e => some (e.1, e.2, off + (128 * e.2 - k))
    | none => badPiece s t (off + n)

/-- Write the save area for a handler at level `to` (step 1 of R335); the address that failed, if one did. (log 29, DEDUCED) -/
def writeSave (s : State) (g : Nat) (w : Warp) (T : Nat) (i : TrapInfo) (from_ tgt : Level) : State × Option Nat :=
  let base := saveBase s g w.part tgt
  let who : Who := { w.who with level := tgt }
  let cl := clusterOf g
  let reps := replayRecs w
  let n1 := 0x600 + 272 * (latchRecs w.r T).length
  let t1 := saveHead w.r from_ tgt T (timeOf s (dieOf g)) reps.length ++ faultBytes i ++ groupTable w.r ++
    scratchBytes w.r ++ saveTail w.r T
  let t2 := (reps.zipIdx).flatMap fun e => replayBytes (1568 * e.2) w.memBase e.1
  match xlateRange cl who .write s base 0xB000 with
  | (s, .error e) => (s, some e.2)
  | (s, .ok ps) =>
    match badPiece s ps 0 with
    | some e => (s.meetError e.1 e.2.1 i.pc w.lnid.toNat, some (base + e.2.2))
    | none =>
    match writeVa cl who s base n1 t1 with
    | (s, some e) => (s, some e.2)
    | (s, none) =>
      match writeVa cl who s (base + 0x4A00) (1568 * reps.length) t2 with
      | (s, some e) => (s, some e.2)
      | (s, none) => ((writeVa cl who s (base + 0xAC00) 1024 []).1, none)

/-- Keys of S40 to S47 in the pending-writer table. -/
def scratchS (k : Nat) : Bool := decide (sKey 40 ≤ k) && decide (k < sKey 48)

/-- Keys of S40 to S47, V0 and V1. -/
def scratchKey (k : Nat) : Bool := decide (k < 128) || scratchS k

/-- The groups in the delay bundles of a transfer that moves no lane, in the order of their entries (R341). -/
def idleTransfers (r : Regs) : List Nat :=
  let at_ := fun n => r.groups.zipIdx.filterMap fun e => match e.1.pending with
    | some x => if x.left = n ∧ x.lanes = 0 then some e.2 else none
    | none => none
  at_ 1 ++ at_ 2

/-- The handler's first state (steps 2 and 3 of R335, R336): S40 to S47 are written and full; V0 and V1 stay as they are, empty
where they were. (log 15, DEDUCED; log 29, DEDUCED) -/
def enterHandler (s : State) (g : Nat) (w : Warp) (T : Nat) (i : TrapInfo) (from_ tgt : Level) : Warp :=
  let base := saveBase s g w.part tgt
  let r := w.r
  let grp : Group := { mask := w.live, pc := BitVec.ofNat 64 (vectorBase s g w.part tgt + 32 * causeClass i.cause),
                       wait := .ready, pending := none }
  let stash := r.pend.filter fun e => scratchKey e.1
  let r := { r with groups := [grp], cur := 0, flight := [], latch := [], due := T, wtime := T,
                    pend := r.pend.filter fun e => !scratchS e.1 }
  let r := ((((r.writeS 40 (BitVec.ofNat 32 base)).writeS 41 (BitVec.ofNat 32 (base / 2 ^ 32))).writeS 42
    (BitVec.ofNat 32 i.cause)).writeS 43 (BitVec.ofNat 32 from_.num)).writeS 44 (BitVec.ofNat 32 i.va)
  let r := ((r.writeS 45 (BitVec.ofNat 32 (i.va / 2 ^ 32))).writeS 46 (lowWord i.lanes)).writeS 47 (highWord i.lanes)
  { w with r := r, level := tgt, burst := 0, joining := false, faults := [],
           handlers := { level := w.level, holdOp := w.holdOp, holdEng := w.holdEng, pend := stash,
                         idle := idleTransfers w.r, away := w.r.groups.map fun g => g.away, seqs := w.r.savedSeqs } :: w.handlers }

/-- A trap at hypervisor level halts the warp: its lanes end without a completion decrement, and the error log takes the
cause (R330). -/
def haltWarp (s : State) (g : Nat) (w : Warp) (cause pc : Nat) : State :=
  let s := s.setWarp g { w with halted := true, faults := [], notices := [] }
  let s := s.exitLanes g w.live
  s.logError (dieOf g) cause 4 (identOf g w.part) pc w.lnid.toNat

/-- Take a trap at warp time T (R335): save area, handler group, vector. A save that fails raises 0x08A at the next
level (R393). -/
def takeTrapAt (s : State) (g : Nat) (T : Nat) (i : TrapInfo) : State :=
  match tfind s.warps g with
  | none => s
  | some w0 =>
    let w := { w0 with r := w0.r.settleTrap T }
    let rstk := w.r.rstkWord
    match handlerLevel w.level (causeClass i.cause) with
    | none => haltWarp s g w i.cause i.pc
    | some tgt =>
      let s := s.sketchEvent (clusterOf g) 0x01 i.pc 1
      match writeSave s g w T i w.level tgt with
      | (s, none) =>
        (s.setWarp g (enterHandler s g w T i w.level tgt)).traceRecord g w i.pc rstk 0 i.cause
      | (s, some va) =>
        if tgt = .hypervisor then haltWarp s g w 0x08A i.pc
        else
          let j : TrapInfo := { i with cause := 0x08A, id := i.cause, va := va, reasons := 0 }
          match writeSave s g w T j w.level .hypervisor with
          | (s, none) =>
            (s.setWarp g (enterHandler s g w T j w.level .hypervisor)).traceRecord g w i.pc rstk 0 0x08A
          | (s, some _) => haltWarp s g w 0x08A i.pc

/-- A precise trap of the bundle being issued: it has not issued, and T is the warp time at which it is due (R335); a translation fault
counts in the sketches (R371). -/
def takeTrap (s : State) (i : TrapInfo) : State :=
  match s.curWarp with
  | none => s
  | some w =>
    takeTrapAt (if causeClass i.cause = 3 then s.sketchEvent (clusterOf s.cur) 0x02 i.pc 1 else s) s.cur w.r.due i

/-! ### Return (R343, R344) -/

/-- What RFT reads: a reader of the save area's fields. -/
abbrev SaveReader := Nat → Nat → Nat

/-- The latch entry at index i. -/
def readLatchRec (rd : SaveReader) (i : Nat) : LatchRec :=
  let off := 0x600 + 272 * i
  let h := rd off 8
  let lanes := BitVec.ofNat 64 (rd (off + 8) 8)
  { kind := h % 16, cls := bitsOf h 4 4, dest := bitsOf h 8 8, wr := bitsOf h 16 8, vis := bitsOf h 24 8,
    half := h.testBit 32, lanes := lanes,
    vals := laneTable 0 lanes fun l => BitVec.ofNat 32 (rd (off + 16 + 4 * l) 4) }

def readGroup (rd : SaveReader) (i : Nat) : Group :=
  let off := 0x80 + 48 * i
  let w := rd off 8
  let o0 := rd (off + 16) 8
  let o1 := rd (off + 24) 8
  let o2 := rd (off + 32) 8
  let wait : Wait :=
    match bitsOf w 56 3 with
    | 0 => .ready
    | 1 => .empty
    | 2 => .join (o0 % 8)
    | 3 => if w.testBit 62 then .rest (o0 % 8) else .flag (BitVec.ofNat 8 o0)
    | 4 => .barrier o0 o1
    | _ => if o1 = 0 then .sleep o0
           else .timeline (if o0 = 2 ^ 64 - 1 then none else some o0) (BitVec.ofNat 64 o1) none (BitVec.ofNat 64 o2) (bitsOf w 59 3)
  { mask := BitVec.ofNat 64 (rd (off + 8) 8), pc := BitVec.ofNat 64 (w % 2 ^ 56 / 32 * 32), wait := wait, pending := none }

/-- Header, group table and latch entries hold counts within their ranges, defined KIND and STATE fields and zero where R338, R340 and
R341 give zero (R343). -/
def entriesOk (rd : SaveReader) : Bool :=
  let h := rd 0 8
  let pend := bitsOf h 16 8
  let grps := bitsOf h 29 5
  h % 256 == 1 && decide (pend ≤ 64) && decide (1 ≤ grps) && decide (grps ≤ 16) && decide (bitsOf h 34 4 < grps) &&
  h / 2 ^ 38 == 0 && rd 0x18 8 / 2 ^ 16 == 0 && rd 0x28 24 == 0 &&
  (List.range grps).all (fun i => bitsOf (rd (0x80 + 48 * i) 8) 56 3 < 6 && !(rd (0x80 + 48 * i) 8).testBit 63 &&
    rd (0x80 + 48 * i) 8 % 32 == 0 && rd (0x80 + 48 * i + 40) 8 == 0) &&
  (List.range pend).all (fun i => rd (0x600 + 272 * i) 8 % 16 < 6 && rd (0x600 + 272 * i) 8 / 16 % 16 < 4 && rd (0x600 + 272 * i) 8 / 2 ^ 33 == 0)

/-- What R337 and R339 give as zero is zero. -/
def paddingOk (rd : SaveReader) : Bool :=
  rd 0x40 2 / 512 == 0 && rd 0x42 2 == 0 && rd 0x78 8 == 0 && rd 0x3A8 88 == 0 && rd 0xAC00 1024 == 0

/-- Instructions of R163, which a replay record may hold: an STS in its scalar form alone. -/
def replayable (i : Instr) : Bool :=
  match i with
  | .ldg _ | .ldc _ | .ldacq _ | .ldl _ | .atom _ | .stg _ | .strel _ | .stl _ | .red _ | .qpost _ | .qtake _
  | .tlsig _ | .lds _ | .atoms _ => true
  | .sts f => ((shape i).map fun h => h.scalar f).getD false
  | _ => false

/-- The checks of RFT on the area; none means that they pass. (log 34, DEDUCED) -/
def saveCheck (rd : SaveReader) (level : Level) : Bool :=
  let h := rd 0 8
  let rep := bitsOf h 24 5
  entriesOk rd && decide (rep ≤ 16) && decide (bitsOf h 8 2 < level.num) && paddingOk rd &&
  (List.range rep).all fun i =>
    rd (0x4A18 + 1568 * i) 2 / 512 == 0 && rd (0x4A1A + 1568 * i) 6 == 0 &&
    match decodeSyllable .memory (BitVec.ofNat 64 (rd (0x4A00 + 1568 * i) 8)) with
    | .ok x => replayable x
    | .error _ => false

/-- Put a latch entry back in flight, with U the due warp time of the first bundle (R344). `next` is the entry after it,
the high half of a 64-bit value, and `place` the index of the group of a pending transfer. (log 27, DEDUCED) -/
def Regs.restoreLatch (r : Regs) (U seq : Nat) (x : LatchRec) (next : Option LatchRec) (group : Option Nat) : Regs :=
  let hi := match next with
    | some y => if y.half && !x.half && y.kind == x.kind && y.dest == x.dest then some y else none
    | none => none
  let wide := fun l => joinWords (tget 0 x.vals l) (match hi with
    | some y => tget 0 y.vals l
    | none => 0)
  let dest : Dest :=
    if x.dest < 192 then .v (x.dest + (if x.half then 1 else 0))
    else if x.dest < 240 then .s (x.dest - 192 + (if x.half then 1 else 0)) else .none
  let place := fun (d : Dest) (cls : Nat) (latch : Option (Table DWord)) (ll : Lanes) => insertFlight
    { dest := d, cls := cls, writeAt := U + x.wr - 1, visAt := U + x.vis, lanes := x.lanes, vals := x.vals,
      latch := latch, latchLanes := ll, latched := false, half := x.half, seq := seq } r.flight
  match x.kind with
  | 0 =>
    if x.half then { r with flight := place dest x.cls none 0 }
    else if 192 ≤ x.dest && x.dest < 240 then
      { r with flight := place dest x.cls (some (laneTable 0 allLanes fun _ => if x.cls = 2 then wide 0 else (tget 0 x.vals 0).zeroExtend 64)) allLanes }
    else { r with flight := place dest x.cls (some (laneTable 0 x.lanes fun l => if x.cls = 2 then wide l else (tget 0 x.vals l).zeroExtend 64)) x.lanes }
  | 1 => { r with flight := place (.p x.dest) x.cls none 0 }
  | 2 => { r with flight := place dest 4 none 0 }
  | 3 => { r with flight := place .fmt 4 none 0 }
  | 4 =>
    if x.half then r
    else
      let gs := r.groups.zipIdx.map (fun e =>
        if group = some e.2 then
          { e.1 with pending := some { left := x.wr, lanes := x.lanes &&& e.1.mask,
                                       target := laneTable 0 (x.lanes &&& e.1.mask) wide, restored := true } }
        else e.1)
      { r with groups := gs }
  | _ =>
    if x.half then r
    else (laneList x.lanes).foldl (fun r l => r.writeLatch x.cls l (if x.cls = 2 then wide l else (tget 0 x.vals l).zeroExtend 64)) r

/-- Put all the entries back, each with the entry after it. A transfer belongs to the group that the table gives its lanes, one
without lanes to the next of `idle`. -/
def Regs.restoreLatches (U : Nat) (masks : List Lanes) : List LatchRec → List Nat → List Nat → Regs → Regs
  | [], _, _, r => r
  | x :: t, q, idle, r =>
    let bare := x.kind == 4 && !x.half && x.lanes == 0
    let group := if bare then idle.head? else masks.findIdx? fun m => m &&& x.lanes != 0
    Regs.restoreLatches U masks t (if x.kind < 4 then q.tail else q) (if bare then idle.tail else idle)
      (r.restoreLatch U (q.headD 0) x t.head? group)

/-- The pending writers set aside wait again at the return. -/
def Regs.restorePending (r : Regs) (fr : Frame) : Regs :=
  { r with pend := fr.pend.foldl (fun t e => tput t e.1 e.2) (r.pend.filter fun e => !scratchKey e.1) }

/-- What has been delivered meanwhile to the registers set aside reaches them. (log 15, DEDUCED) -/
def Regs.deliverGot (r : Regs) (fr : Frame) : Regs :=
  fr.got.foldl (fun r e =>
    let op := r.pending e.1 - 1
    if e.1 < 128 then r.deliverV op (e.1 / 64) (e.1 % 64) e.2 else r.deliverS op (e.1 - sKey 0) e.2) r

/-- Steps 1 and 2 of RFT on the warp, with the latch entries of R344. What the handler has in flight is still written (R17),
in its own cycle after a restored result (R19). (log 64, DEDUCED) -/
def restoreWarp (rd : SaveReader) (w : Warp) (U : Nat) : Warp :=
  let h := rd 0 8
  let table := (List.range (bitsOf h 29 5)).map (readGroup rd)
  let fr := w.handlers.headD { level := .user, holdOp := [], holdEng := none, pend := [], seqs := [] }
  let gs := table.zipIdx.map (fun e =>
    { e.1 with mask := e.1.mask &&& w.live, away := fr.away.getD e.2 0 &&& w.live, last := e.2 == bitsOf h 34 4 })
  let r := { w.r with groups := gs, cur := bitsOf h 34 4, fmt := fmtMask &&& BitVec.ofNat 64 (rd 0x10 8), rd := rd 0x18 1,
                      latch := [], flight := [] }
  let r := (List.range 8).foldl (fun r i => r.writeS (40 + i) (BitVec.ofNat 32 (rd (0x380 + 4 * i) 4))) r
  let r := r.writeP 6 allLanes (BitVec.ofNat 64 (rd 0x3A0 8))
  let r := (List.range 2).foldl (fun r n => (List.range 64).foldl (fun r l =>
    r.writeV n l (BitVec.ofNat 32 (rd (0x400 + 256 * n + 4 * l) 4))) r) r
  let r := r.restorePending fr
  let r := Regs.restoreLatches U (table.map fun g => g.mask) ((List.range (bitsOf h 16 8)).map (readLatchRec rd)) fr.seqs fr.idle r
  let r := r.deliverGot fr
  let r := { r with flight := w.r.flight.foldl (fun l q => insertFlight q l) r.flight }
  { w with r := r.compact, level := Level.ofNum (bitsOf h 8 2), holdOp := (fr.holdOp ++ w.holdOp).dedup, holdEng := fr.holdEng.or w.holdEng,
           handlers := w.handlers.tail, burst := 0 }

end Sys2Proof.Machine
end

