-- ==== Sys2Proof/Machine/Operands.lean ====
section
/-! DEFINITION. Operand forms: what a source supplies (R52, R54, R94, R99, R131, R132), the registers that a bundle names,
its register errors (R34), its bank cost (R24) and its latency hold (R20). -/

namespace Sys2Proof.Machine

/-! ### Sources -/

def sext8 (e : BitVec 8) : Word := e.signExtend 32

/-- A 32-bit source in a lane (R54, R94). -/
def src32 (w : Warp) (iss : Issue) (e : BitVec 8) (c l : Nat) : Word :=
  if c < 192 then w.r.readV c l
  else if c < 240 then w.r.readS (c - 192)
  else if c < 244 then lowWord (w.r.readLatch (c - 240) l)
  else
    match c with
    | 245 => BitVec.ofNat 32 l
    | 246 => BitVec.ofNat 32 w.wid
    | 247 => w.tid
    | 248 => iss.imm
    | 249 => sext8 e
    | _ => 0

/-- Register k of an operand of several registers; a constant is sign-extended to the operand's width (R52). (log 28, DEDUCED) -/
def srcWord (w : Warp) (iss : Issue) (e : BitVec 8) (c k l : Nat) : Word :=
  if c < 192 then w.r.readV (c + k) l
  else if c < 240 then w.r.readS (c - 192 + k)
  else if c = 242 then (if k = 0 then lowWord else highWord) (w.r.readLatch 2 l)
  else
    match c with
    | 248 => if k = 0 then iss.imm else if iss.imm.msb then BitVec.allOnes 32 else 0
    | 249 => if k = 0 then sext8 e else if e.msb then BitVec.allOnes 32 else 0
    | _ => 0

/-- A 64-bit source in a lane (R94). -/
def src64 (w : Warp) (iss : Issue) (e : BitVec 8) (c l : Nat) : DWord :=
  joinWords (srcWord w iss e c 0 l) (srcWord w iss e c 1 l)

/-- A source of n registers as one number, the lowest register in the low bits (R133). (log 28, DEDUCED) -/
def srcN (w : Warp) (iss : Issue) (e : BitVec 8) (n c l : Nat) : Nat :=
  if n ≤ 1 then (src32 w iss e c l).toNat
  else (List.range n).foldl (fun a k => a + (srcWord w iss e c k l).toNat * 2 ^ (32 * k)) 0

/-- The warp with its registers at the bundle's issue warp time. -/
def Warp.at (w : Warp) (t : Nat) : Warp := { w with r := w.r.settle t }

/-! ### The registers that an instruction names -/

/-- One operand: its position of R34 (0 D, 1 A, 2 B, 3 C, 4 control A), code, registers, role, X bit. -/
structure Operand where
  pos : Nat
  code : Nat
  words : Nat
  isDst : Bool
  x : Bool
  deriving DecidableEq, Repr

def fieldOperand (pos : Nat) (k : Field) (c : Nat) (x : Bool) : List Operand :=
  match k with
  | .dst w _ _ _ => [{ pos := pos, code := c, words := w, isDst := true, x := false }]
  | .src w _ => [{ pos := pos, code := c, words := w, isDst := false, x := x }]
  | _ => []

/-- Widths that FMT decides: VCVT reads a pair from FP64 and writes one to it (R117). -/
def fmtField (fmt : DWord) (lo : Nat) : Nat := bitsOf fmt.toNat lo 4

def shapeAt (i : Instr) (fmt : DWord) : Option Shape :=
  match i, shape i with
  | .vcvt _, some h =>
    some { h with a := if fmtField fmt 0 = 7 then .src 2 .any else h.a,
                  d := if fmtField fmt 8 = 7 then .dst 2 true true true else h.d }
  | _, h => h

/-- The operands of an instruction (R34). -/
def operandsOf (i : Instr) (fmt : DWord) : List Operand :=
  match view i with
  | .syl _ op f =>
    if op = 0 then []
    else
      (match shapeAt i fmt with
       | none => []
       | some h => fieldOperand 0 h.d f.d.toNat false ++ fieldOperand 1 h.a f.a.toNat f.xa ++
           fieldOperand 2 h.b f.b.toNat f.xb ++ fieldOperand 3 h.c f.c.toNat f.xc)
  | .ctl _ f =>
    (match ctlShape i with
     | none => []
     | some h =>
       match h.a with
       | .sreg w _ => [{ pos := 4, code := f.a.toNat, words := w, isDst := h.isDst, x := false }]
       | .src w => [{ pos := 4, code := f.a.toNat, words := w, isDst := false, x := false }]
       | .getPair => [{ pos := 4, code := f.a.toNat, words := 2, isDst := true, x := false }]
       | _ => [])
  | .event => []

/-- SRD and SWR of a 64-bit special register name a pair (R35, R225). -/
def widenSreg (i : Instr) (wide : Nat → Bool) (o : Operand) : Operand :=
  match i with
  | .srd f | .swr f => if wide f.imm.toNat then { o with words := 2 } else o
  | _ => o

/-! ### Register errors (R34) -/

/-- Kind of the error that an operand has by its code: 0 allotment, 2 pair, 3 not writable. Alignment is judged first
and alone (R34). -/
def operandKind (allot : Nat) (o : Operand) : Option Nat :=
  if o.code < 192 then
    (if o.words ≠ 1 && o.code % o.words ≠ 0 then some 2 else if allot ≤ o.code then some 0 else none)
  else if o.code < 240 then
    (if o.words ≠ 1 && (o.code - 192) % o.words ≠ 0 then some 2 else none)
  else if o.isDst && notWritable o.code then some 3
  else none

/-- Some register of the operand is empty in the lanes (R26). -/
def operandEmpty (r : Regs) (m : Lanes) (o : Operand) : Bool :=
  !o.isDst && (List.range o.words).any fun k =>
    if o.code < 192 then r.emptyV (o.code + k) m != 0
    else if o.code < 240 then r.emptyS (o.code - 192 + k)
    else false

/-- The register cause of a set of operands with the kinds of error they have: the kinds in the order 0, 2, 3, 1, the
position of the one concerned, 7 for several (R34). -/
def regCause (errs : List (Nat × Nat)) : Option Nat :=
  ([0, 2, 3, 1].filterMap fun k =>
    match errs.filter fun e => e.1 == k with
    | [] => none
    | [e] => some (0x020 + 8 * k + e.2)
    | _ => some (0x020 + 8 * k + 7)).head?

/-! ### Bank cost (R24) -/

/-- V registers read by an operand. -/
def operandVs (o : Operand) : List Nat :=
  if !o.isDst && decide (o.code < 192) then (List.range o.words).map fun k => o.code + k else []

/-- Delay cycles of the registers read: each distinct register past the second of its bank (R24). -/
def bankDelay (vs : List Nat) : Nat :=
  (List.range 4).foldl (fun n b => n + ((vs.dedup.filter fun v => v % 4 == b).length - 2)) 0

/-! ### Latency hold (R20) -/

/-- What a bundle reads: registers with their lanes, predicates, latches. -/
structure Reads where
  regs : List (Dest × Lanes)
  latches : List (Nat × Lanes)
  deriving DecidableEq, Repr

def operandReads (m : Lanes) (o : Operand) : Reads :=
  if o.isDst then { regs := [], latches := [] }
  else
    { regs := (List.range o.words).filterMap (fun k =>
        if o.code < 192 then some (Dest.v (o.code + k), m)
        else if o.code < 240 then some (Dest.s (o.code - 192 + k), allLanes) else none),
      latches := if 240 ≤ o.code && o.code < 244 then [(o.code - 240, m)] else [] }

/-- At warp cycle c some value that the bundle reads is visible under its declared latency and still on its way to the native
one (R20). (log 16, DEDUCED; log 27, DEDUCED) -/
def latencyHeld (flight : List Result) (rs : Reads) (c : Nat) : Bool :=
  flight.any fun q =>
    ((rs.regs.any fun x => decide (x.1 = q.dest) && x.2 &&& q.lanes != 0) && decide (q.visAt ≤ c) && decide (c ≤ q.writeAt)) ||
    (q.latch.isSome && (rs.latches.any fun x => x.1 == q.cls && x.2 &&& q.latchLanes != 0) && decide (q.visAt ≤ c + 1) &&
      decide (c < q.writeAt))

end Sys2Proof.Machine
end

