-- ==== Sys2Proof/Machine/MemOps.lean ====
section
/-! DEFINITION. The memory slot: its checks at issue (R160), how an instruction goes into flight (R137 to R139), its
performing, delivery and faults (R140 to R164, R256, R257, R260, R267), fences, tile handles (R152 to R154), rings and
counters (R155 to R158). -/

namespace Sys2Proof.Machine

/-! ### Forms -/

/-- What a syllable says of its access: kind, bytes, extension, registers of D and of C, operation and scope. -/
structure MemForm where
  kind : MemKind
  size : Nat
  signed : Bool
  ro : Bool
  spill : Bool
  tile : Bool
  dst : Nat
  data : Nat
  fn : Nat
  wide : Bool
  scope : Nat
  deriving DecidableEq, Repr

/-- Bytes of an access by M (R133). -/
def memBytes (m : Nat) : Nat :=
  match m with
  | 0 => 1
  | 1 => 1
  | 2 => 2
  | 3 => 2
  | 5 => 8
  | 6 => 16
  | _ => 4

def MemForm.plain (kind : MemKind) (f : Syl) (dst data : Nat) : MemForm :=
  { kind := kind, size := memBytes f.m.toNat, signed := f.m == 1 || f.m == 3, ro := false, spill := false, tile := false,
    dst := dst, data := data, fn := 0, wide := false, scope := 0 }

/-- Forms of 4 or 8 bytes by M[0], with the scope in E. -/
def MemForm.wide1 (kind : MemKind) (f : Syl) (dst data scope : Nat) : MemForm :=
  { kind := kind, size := if f.op64 then 8 else 4, signed := false, ro := false, spill := false, tile := false,
    dst := dst, data := data, fn := f.e.toNat % 16, wide := f.op64, scope := scope }

/-- The form of each memory instruction that goes into flight. -/
def memForm : Instr → Option MemForm
  | .ldg f => some { MemForm.plain .load f (sizeWords f.m.toNat) 0 with ro := f.h == 3 }
  | .ldc f => some { MemForm.plain .load f (sizeWords f.m.toNat) 0 with ro := true }
  | .ldl f => some { MemForm.plain .load f (sizeWords f.m.toNat) 0 with spill := true }
  | .lds f => some { MemForm.plain .tileLoad f (sizeWords f.m.toNat) 0 with tile := true }
  | .stg f => some (MemForm.plain .store f 0 (sizeWords f.m.toNat))
  | .stl f => some { MemForm.plain .store f 0 (sizeWords f.m.toNat) with spill := true }
  | .sts f => some { MemForm.plain .tileStore f 0 (sizeWords f.m.toNat) with tile := true }
  | .ldacq f => some (MemForm.wide1 .ldacq f (if f.op64 then 2 else 1) 0 f.e.toNat)
  | .strel f => some (MemForm.wide1 .strel f 0 (if f.op64 then 2 else 1) f.e.toNat)
  | .atom f => some (MemForm.wide1 .atom f (if f.op64 then 2 else 1) (atomDataWords (f.e.toNat % 16) f.op64)
      (f.e.toNat / 16))
  | .red f => some (MemForm.wide1 .red f 0 (if f.op64 then 2 else 1) (f.e.toNat / 16))
  | .atoms f => some { MemForm.wide1 .tileAtom f (if f.op64 then 2 else 1)
      (atomDataWords (f.e.toNat % 16) f.op64) 0 with tile := true }
  | .qpost f => some { MemForm.plain .qpost f 1 2 with size := 64, scope := f.e.toNat }
  | .qtake f => some { MemForm.plain .qtake f 2 0 with size := 64, scope := f.e.toNat }
  | .tlsig f => some { MemForm.plain .tlsig f 0 2 with size := 8, fn := if f.op64 then 8 else 0, wide := true,
                                                       scope := f.e.toNat }
  | .icinv f => some { MemForm.plain .icinv f 1 1 with size := 1, scope := f.e.toNat }
  | .fence f => some { MemForm.plain .fence f 0 0 with size := 1, scope := f.e.toNat }
  | .rfence f => some { MemForm.plain .rfence f 0 0 with size := 1, fn := f.m.toNat, scope := 2 }
  | _ => none

/-- TLSIG and ICINV are always scalar (R158, R159); the others by their fields (R132). -/
def memScalar (i : Instr) (h : Shape) (f : Syl) : Bool :=
  match i with
  | .tlsig _ => true
  | .icinv _ => true
  | .fence _ => true
  | .rfence _ => true
  | _ => h.scalar f

/-- The lane whose sources a lane's access reads: its own, or in scalar form the lowest lane of the group (R132). -/
def srcLane (w : Warp) (scalar : Bool) (l : Nat) : Nat := if scalar then lowLane w.r.group.mask else l

/-- Spill address of offset o of lane l (R144). -/
def spillVa (w : Warp) (o l : Nat) : Nat := w.lbase.toNat + o / 4 * 256 + l * 4 + o % 4

/-- Offset of a tile or spill access, unsigned (R131). -/
def memOffset (w : Warp) (iss : Issue) (f : Syl) (l : Nat) : Nat := (src32 w iss f.e f.b.toNat l).toNat

/-- Global address A64 + sext(B), modulo 2^64 (R131). -/
def globalVa (w : Warp) (iss : Issue) (f : Syl) (l : Nat) : Nat :=
  (src64 w iss f.e f.a.toNat l + (src32 w iss f.e f.b.toNat l).signExtend 64).toNat

/-- The address of lane l, or a tile offset. -/
def memAddr (w : Warp) (iss : Issue) (m : MemForm) (f : Syl) (scalar : Bool) (l : Nat) : Nat :=
  let q := srcLane w scalar l
  if m.tile then memOffset w iss f q
  else if m.spill then spillVa w (memOffset w iss f q) l
  else globalVa w iss f q

def memData (w : Warp) (iss : Issue) (m : MemForm) (f : Syl) (scalar : Bool) (l : Nat) : BitVec 128 :=
  BitVec.ofNat 128 (srcN w iss f.e m.data f.c.toNat (srcLane w scalar l))

/-! ### Checks at issue (R160) -/

def raise1 (pc : DWord) (cause : Nat) (lanes : Lanes) (va : Nat) : TrapInfo :=
  { cause := cause, id := 0, pc := pc.toNat, lanes := lanes, va := va, reasons := 0 }

/-- A cause of the lanes that fail; none when none does. -/
def raiseLanes (pc : DWord) (cause : Nat) (scalar : Bool) (act bad : Lanes) (va : Nat → Nat) : List TrapInfo :=
  if bad = 0 then [] else [raise1 pc cause (if scalar then act else bad) (va (lowLane (if scalar then act else bad)))]

/-- Allocation of handle h in the table of the warp's team. -/
def tableHandle (s : State) (w : Warp) (h : Nat) : Option Handle :=
  (tfind s.teams w.team).bind fun t => tfind t.htab h

/-- Allocation of handle h as issue sees it: HALLOC and HFREE tell from the next real cycle on (R153, R254). -/
def handleOf (s : State) (w : Warp) (h : Nat) : Option Handle :=
  match tfind s.teams w.team with
  | none => none
  | some t =>
    let now := (s.cluster t.cluster).cycle
    match (tfind t.htab h).filter fun q => decide (q.since ≤ now) with
    | some q => some q
    | none => (s.oldHandles.find? fun e => e.2.team == w.team && e.2.number == h && decide (now < e.2.gone) &&
        decide (e.2.h.since ≤ now)).map fun e => e.2.h

def Handle.size (h : Handle) : Nat := h.rows * h.rowBytes

/-- Access, privilege and synchronisation causes of a memory instruction. -/
def memRaises (s : State) (w : Warp) (i : Instr) : List TrapInfo :=
  match view i, memForm i, shape i with
  | .syl _ _ f, some m, some h =>
    let act := w.r.active f.g1 f.g2
    let sc := memScalar i h f
    let lanes := if sc then laneBit (lowLane act) else act
    let pc := s.issue.pc
    let at1 := fun l => memAddr w s.issue m f sc l
    let off := fun l => memOffset w s.issue f (srcLane w sc l)
    let bad := fun p : Nat → Bool => lanes &&& maskOf p
    if act = 0 then []
    else
      match m.kind with
      | .fence => []
      | .rfence => []
      | .icinv => (if 2 ≤ m.scope && w.level.num = 0 then [raise1 pc 0x108 act 0] else []) ++
          raiseLanes pc 0x081 sc act (bad fun l => !canonical (at1 l)) at1
      | _ =>
        if m.tile then
          match handleOf s w f.a.toNat with
          | none => [raise1 pc 0x082 act 0] ++ raiseLanes pc 0x080 sc act (bad fun l => off l % m.size != 0) fun _ => 0
          | some q =>
            raiseLanes pc 0x080 sc act (bad fun l => off l % m.size != 0) (fun _ => 0) ++
            raiseLanes pc 0x083 sc act (bad fun l => decide (q.size < off l + m.size)) fun _ => 0
        else if m.spill then
          raiseLanes pc 0x080 sc act (bad fun l => off l % m.size != 0) at1 ++
          raiseLanes pc 0x081 sc act (bad fun l => !canonical (at1 l + 256 * ((m.size - 1) / 4))) at1 ++
          raiseLanes pc 0x084 sc act (bad fun l => decide (w.lsize < off l + m.size)) at1
        else
          raiseLanes pc 0x080 sc act (bad fun l => at1 l % m.size != 0) at1 ++
          raiseLanes pc 0x081 sc act (bad fun l => !canonical (at1 l)) at1 ++
          (if m.kind = .qpost then
            raiseLanes pc 0x085 sc act (bad fun l => (memData w s.issue m f sc l).getLsbD 63) at1 else []) ++
          (if m.kind = .tlsig && m.fn = 0 && w.level = .user then
            raiseLanes pc 0x0C4 sc act (bad fun l => (memData w s.issue m f sc l).getLsbD 63) at1 else [])
  | _, _, _ => []

/-! ### Entries and holds (R138) -/

/-- Performed masks by scope (R256). -/
def MemOp.performed (o : MemOp) (scope : Nat) : Lanes :=
  if scope ≤ 1 then o.team else if scope ≤ 3 then o.die else o.sys

def MemOp.delivered (o : MemOp) : Bool := decide (o.words = 0) || decide (o.lanes &&& ~~~o.dl = 0)

/-- The memory entry is free again: performed in every lane and delivered; an ICINV's when it ends. R138 names no scope: performed at
the home, or for a window sent to the peer. (log 86, DEDUCED) -/
def MemOp.entryFree (o : MemOp) : Bool :=
  !o.takesEntry || (o.kind != .icinv && decide (o.lanes &&& ~~~o.die = 0) && o.delivered)

/-- Memory entries that warp g holds. -/
def entriesHeld (s : State) (g : Nat) : Nat :=
  (s.mops.filter fun e => e.2.warp == g && !e.2.entryFree).length +
  (s.replies.filter fun e => e.2.warp == g && e.2.entry).length

/-! ### Going into flight -/

/-- What kinds RFENCE and ICINV wait for: stores, atomics and reductions, with the atomic operations on rings and counters (R147, R159;
log 87, DEDUCED). -/
def MemKind.isWrite (k : MemKind) : Bool :=
  match k with
  | .load => false
  | .ldacq => false
  | .tileLoad => false
  | .fence => false
  | .rfence => false
  | .icinv => false
  | .pref => false
  | _ => true

def MemKind.isAccess (k : MemKind) : Bool :=
  match k with
  | .fence => false
  | .rfence => false
  | .icinv => false
  | .pref => false
  | _ => true

def MemKind.isTile (k : MemKind) : Bool :=
  match k with
  | .tileLoad => true
  | .tileStore => true
  | .tileAtom => true
  | _ => false

/-- The lanes of an earlier operation that active lanes L cover (R255, R260). -/
def MemOp.coverLanes (o : MemOp) (L : Lanes) : Lanes := if o.act &&& L = 0 then 0 else if o.scalar then o.lanes else o.lanes &&& L

/-- Lanes that faulted in the code which a handler at level lv interrupts: they are performed by the replay after the handler
(R164), so nothing in the handler waits for them (log 22, DEDUCED). -/
def MemOp.setAside (o : MemOp) (lv : Level) : Lanes := if o.level.num < lv.num then o.faulted else 0

def levelOf (s : State) (g : Nat) : Level := ((tfind s.warps g).map fun w => w.level).getD .user

/-- The covered set of active lanes L: earlier accesses of the warp still in flight (R260). (log 22, DEDUCED) -/
def coverOf (s : State) (g : Nat) (L : Lanes) (writesOnly : Bool) : List (Nat × Lanes) :=
  s.mops.filterMap fun e =>
    let m := e.2.coverLanes L &&& ~~~e.2.setAside (levelOf s g)
    if e.2.warp = g ∧ m ≠ 0 ∧ e.2.kind.isAccess ∧ (writesOnly = false ∨ e.2.kind.isWrite) then some (e.1, m) else none

/-- Posted writes of engine operations whose flags warp g has consumed (R260 item 3, R391). -/
def consumedPosts (s : State) (g : Nat) : List (Nat × Lanes) :=
  s.posted.filterMap fun e =>
    if e.2.consumed && (match e.2.copy with
      | some (w, _) => w == g
      | none => false) then some (e.1, 0) else none

/-- The covered set of a kind: releases and fences have one. -/
def coverFor (s : State) (g : Nat) (k : MemKind) (L : Lanes) : List (Nat × Lanes) :=
  match k with
  | .strel => coverOf s g L false ++ consumedPosts s g
  | .qpost => coverOf s g L false ++ consumedPosts s g
  | .tlsig => coverOf s g L false ++ consumedPosts s g
  | .fence => coverOf s g L false ++ consumedPosts s g
  | .rfence => coverOf s g L true
  | .icinv => coverOf s g L true
  | _ => []

/-- The operation of a memory instruction with active lanes `act` (not zero). A scalar LDL or STL uses the spill area of the lowest of them
(log 75, DEDUCED). -/
def memOpOf (s : State) (w : Warp) (i : Instr) (f : Syl) (m : MemForm) (sc : Bool) (act : Lanes) : MemOp :=
  let lanes := if m.kind.isAccess then (if sc then laneBit (lowLane act) else act) else 0
  { warp := s.cur, seq := w.memSeq, pc := s.issue.pc, syl := encode i, kind := m.kind, size := m.size,
    signed := m.signed, ro := m.ro, scalar := sc, lanes := lanes, act := act, scope := m.scope, fn := m.fn,
    wide := m.wide, dest := if m.dst = 0 then 244 else f.d.toNat, words := m.dst, level := w.level, ctx := w.ctx,
    part := w.part, cluster := clusterOf s.cur, spill := m.spill,
    addr := if m.kind = .fence ∨ m.kind = .rfence then [] else
      laneTable 0 (if sc then laneBit (lowLane act) else act) fun l => BitVec.ofNat 64 (memAddr w s.issue m f sc l),
    data := if m.data = 0 then [] else
      laneTable 0 (if sc then laneBit (lowLane act) else act) fun l => memData w s.issue m f sc l,
    pa := [], xlated := if m.tile then lanes else 0, team := 0, die := 0, sys := 0, faulted := 0, cause := 0, watch := 0,
    vals := [], dl := 0, cover := coverFor s s.cur m.kind act, stamps := [], cycle := (s.cluster (clusterOf s.cur)).cycle,
    handle := if m.tile then (match handleOf s w f.a.toNat with
      | some q => q.gen
      | none => 0) else 0,
    takesEntry := m.kind != .fence && m.kind != .rfence && m.kind != .pref }

/-- Holding instructions of R136. -/
def MemKind.holds (k : MemKind) : Bool :=
  match k with
  | .ldacq => true
  | .qtake => true
  | .fence => true
  | .rfence => true
  | _ => false

/-- The warp counts one more memory-slot instruction (R356). -/
def State.countMem (s : State) : State := s.modWarp s.cur fun w => { w with memSeq := w.memSeq + 1 }

/-- A register result that needs no access: `count` registers from operand `code`, values by lane and register. -/
def State.issueReply (s : State) (g code count : Nat) (lanes : Lanes) (vals : Table Word) (ready entry : Bool) : State :=
  let id := s.nextId
  let q : Reply := { warp := g, dest := code, count := count, lanes := lanes, scalar := decide (192 ≤ code), vals := vals,
                     ready := ready, entry := entry }
  { s.modWarp g (fun w => { w with r := w.r.emptyCode id code count lanes }) with
    replies := tput s.replies id q, nextId := id + 1 }

/-- The reply waits for a request to be performed. -/
def State.askReply (s : State) (id : Nat) (r : HandleReq) : State :=
  { s with replies := s.replies.map fun e => if e.1 = id then (e.1, { e.2 with req := some r }) else e }

/-- Values of a scalar result of 32-bit words, as lane 0 of a reply. -/
def scalarVals (ws : List Nat) : Table Word :=
  (ws.zipIdx).filterMap fun e => if e.1 % 2 ^ 32 = 0 then none else some (64 * e.2, BitVec.ofNat 32 e.1)

/-! ### Overlap (R257, R267) -/

/-- Lane l of o and lane q of p touch a common byte: by virtual address, or by named address where both are known. (log 36, DEDUCED) -/
def MemOp.lanesMeet (o p : MemOp) (l q : Nat) : Bool :=
  if o.kind.isTile || p.kind.isTile then
    o.kind.isTile && p.kind.isTile && o.handle == p.handle &&
      rangesMeet (tget 0 o.addr l).toNat o.size (tget 0 p.addr q).toNat p.size
  else
    (List.range o.pieces).any fun i => (List.range p.pieces).any fun k =>
      rangesMeet (o.pieceVa l i) o.pieceBytes (p.pieceVa q k) p.pieceBytes ||
      (match tfind o.pa (4 * l + i), tfind p.pa (4 * q + k) with
       | some a, some b => rangesMeet a o.pieceBytes b p.pieceBytes
       | _, _ => false)


/-- A lower lane of the same operation meets lane l and is in `sel`. -/
def lowerMeets (o : MemOp) (l : Nat) (sel : Lanes) : Bool :=
  (laneList sel).any fun q => q < l && o.lanesMeet o l q

/-! ### Deferred faults (R162, R163) -/

/-- Order of report among classes (R334), then the code. (log 45, DEDUCED) -/
def causeRank (c : Nat) : Nat :=
  (match causeClass c with
   | 0 => 0
   | 1 => 1
   | 9 => 2
   | 8 => 3
   | 2 => 4
   | 3 => 5
   | 4 => 6
   | 5 => 7
   | 6 => 8
   | 10 => 9
   | _ => 10) * 512 + c

/-- Instructions that a fault leaves wholly unperformed: rings, counters and scalar accesses (R163). -/
def MemOp.whole (o : MemOp) : Bool := o.scalar || o.kind == .qpost || o.kind == .qtake || o.kind == .tlsig

/-- The lanes that a record of an operation lists for faulted lanes m: every active lane of a wholly unperformed
instruction (R342). -/
def MemOp.recLanes (o : MemOp) (m : Lanes) : Lanes := if o.whole then o.act else m

def MemOp.recAddr (o : MemOp) (l : Nat) : DWord := tget 0 o.addr (if o.scalar then lowLane o.lanes else l)
def MemOp.recData (o : MemOp) (l : Nat) : BitVec 128 := tget 0 o.data (if o.scalar then lowLane o.lanes else l)

def faultRecOf (id : Nat) (o : MemOp) (m : Lanes) (cause : Nat) : FaultRec :=
  let lanes := o.recLanes m
  { op := id, syl := o.syl, lanes := lanes, seq := o.seq, cause := cause, pc := o.pc,
    addr := laneTable 0 lanes fun l => if o.kind == .qpost || o.kind == .qtake then tget 0 o.addr (lowLane o.lanes)
                                       else o.recAddr l,
    data := laneTable 0 lanes o.recData, replay := true }

/-- Add a record of one instruction, in issue order; a second report of the same instruction joins the first. -/
def addFault (q : FaultRec) : List FaultRec → List FaultRec
  | [] => [q]
  | h :: t =>
    if h.op = q.op ∧ h.replay = q.replay then q :: t
    else if h.op < q.op then h :: addFault q t else q :: h :: t

def MemOp.retired (o : MemOp) : Bool :=
  o.kind.isAccess && decide (o.lanes &&& ~~~o.sys = 0) && o.delivered && decide (o.watch = 0)

/-- Performed at `.dev`, or at `.sys` for a window: the checkpoint of precise mode no longer needs it (R346). -/
def MemOp.settled (o : MemOp) : Bool :=
  decide (o.lanes &&& ~~~(if o.pa.any fun e => isWindow e.2 then o.sys else o.die) = 0)

/-- The checkpoint of an operation goes, and the steps that wait for it come first (R346). -/
def State.settle (s : State) (o : MemOp) : State :=
  match tfind s.warps o.warp with
  | none => s
  | some w =>
    { s.modWarp o.warp (fun w => { w with checkpoint := w.checkpoint.filter fun e => e.seq ≠ o.seq }) with
      agenda := (w.checkpoint.filter fun e => e.seq = o.seq).flatMap (fun e => e.later) ++ s.agenda }

/-- Put back an operation, or drop it when nothing of it is left; its checkpoint goes as soon as it may. -/
def State.putOp (s : State) (id : Nat) (o : MemOp) : State :=
  let s := if o.settled then s.settle o else s
  if o.retired then { s with mops := terase s.mops id } else { s with mops := tput s.mops id o }

/-- Lane l of operation id faults; the lanes of an ended warp are abandoned (log 21, DEDUCED). -/
def State.faultLane (s : State) (id l cause : Nat) : State :=
  match tfind s.mops id with
  | none => s
  | some o =>
    let m := if o.whole then o.lanes else o.faulted ||| laneBit l
    let c := if o.faulted = 0 then cause else if causeRank cause < causeRank o.cause then cause else o.cause
    match tfind s.warps o.warp with
    | none => s
    | some w =>
      if w.ended then
        s.putOp id { o with team := o.team ||| m, die := o.die ||| m, sys := o.sys ||| m, dl := o.dl ||| m }
      else
        let s := { s with mops := tput s.mops id { o with faulted := m, cause := c } }
        s.setWarp o.warp { w with faults := addFault (faultRecOf id o m c) w.faults }

/-- A deferred fault without replay, such as 0x089, 0x0B1 or 0x123 (R171, R318, R366, R383); a translation fault counts in the sketches
(R371). -/
def State.deferFault (s : State) (g id cause : Nat) (pc syl : DWord) (lanes : Lanes) (va : DWord) : State :=
  let s := if causeClass cause = 3 then s.sketchEvent (clusterOf g) 0x02 pc.toNat 1 else s
  s.modOwner g fun w =>
    if w.ended then w
    else { w with faults := addFault { op := id, syl := syl, lanes := lanes, seq := 0, cause := cause, pc := pc,
                                       addr := laneTable 0 lanes fun _ => va, data := [], replay := false } w.faults }

/-! ### Translation (R161, R237) -/

/-- The kind of an access in its translation (R161): QPOST, QTAKE and TLSIG reach descriptor and counter as atomics (log 76, DEDUCED). -/
def MemKind.acc : MemKind → Acc
  | .load => .read
  | .ldacq => .read
  | .store => .write
  | .strel => .write
  | .fence => .read
  | .rfence => .read
  | .icinv => .read
  | .pref => .read
  | .tileLoad => .read
  | .tileStore => .write
  | _ => .atomic

def MemOp.who (o : MemOp) : Who := { ctx := o.ctx, part := o.part, level := o.level }

/-- Translate the pieces of lane l, the lowest first. -/
def xlateLanePieces (cl : Nat) (who : Who) (acc : Acc) (va : Nat → Nat) : List Nat → State → State × Except Nat (Table Nat)
  | [], s => (s, .ok [])
  | k :: t, s =>
    match translate s cl who acc (va k) with
    | (s, .ok p) =>
      (match xlateLanePieces cl who acc va t s with
       | (s, .ok ps) => (s, .ok ((k, p) :: ps))
       | (s, .error r) => (s, .error r))
    | (s, .fault r) => (s, .error r)
    | (s, .miss) => (s, .error 0)

/-! ### Rings (R155) -/

structure Ring where
  base : Nat
  caplog : Nat
  stage : Nat
  head : Nat
  tail : Nat
  high : Nat
  low : Nat
  valid : Bool
  deriving DecidableEq, Repr

def ringOf (r : List Byte) : Ring :=
  { base := recField r 0 8, caplog := recField r 8 1, stage := recField r 9 1, head := recField r 0x10 8,
    tail := recField r 0x18 8, high := recField r 0x20 4, low := recField r 0x24 4,
    valid := decide (4 ≤ recField r 8 1) && decide (recField r 8 1 ≤ 20) && recField r 0xA 6 == 0 &&
      recField r 0x28 24 == 0 && recField r 0 8 % 128 == 0 }

def Ring.entryVa (q : Ring) (i : Nat) : Nat := q.base + 8 * (i % 2 ^ q.caplog)

def MemKind.isRing (k : MemKind) : Bool :=
  match k with
  | .qpost => true
  | .qtake => true
  | _ => false

/-- The valid ring that a QPOST or QTAKE names, as its descriptor now stands. -/
def ringNamed (s : State) (o : MemOp) : Option Ring :=
  if o.kind.isRing then
    match (readRecord o.cluster o.who s (tget 0 o.addr (lowLane o.lanes)).toNat 64).2 with
    | .ok bs => if (ringOf bs).valid then some (ringOf bs) else none
    | .error _ => none
  else none

/-- Lane q of p touches the entries of the ring that o posts to or takes from. -/
def entriesMeet (s : State) (o p : MemOp) (q : Nat) : Bool :=
  match ringNamed s o with
  | none => false
  | some r => (List.range p.pieces).any fun k => rangesMeet r.base (8 * 2 ^ r.caplog) (p.pieceVa q k) p.pieceBytes

/-- Lane l of o and lane q of p touch a common byte; the entries of a ring count as its bytes (R257). (log 36, DEDUCED) -/
def MemOp.meets (o : MemOp) (s : State) (p : MemOp) (l q : Nat) : Bool := o.lanesMeet p l q || entriesMeet s o p q || entriesMeet s p o l

/-- The cause of an earlier faulted lane that meets lane l (R267). -/
def inheritedCause (s : State) (id : Nat) (o : MemOp) (l : Nat) : Option Nat :=
  (s.mops.find? fun e => e.1 < id && e.2.warp == o.warp && e.2.kind.isAccess &&
    (laneList e.2.faulted).any fun q => o.meets s e.2 l q).map fun e => e.2.cause

/-- An earlier access of the warp, of identity below id, has a lane in `sel` that meets lane l of o. -/
def olderMeets (s : State) (id : Nat) (o : MemOp) (l : Nat) (sel : MemOp → Lanes) : Bool :=
  s.mops.any fun e => e.1 < id && e.2.warp == o.warp && e.2.kind.isAccess &&
    (laneList (sel e.2)).any fun q => o.meets s e.2 l q

/-- Translate lane l of operation id, or fault it; page tables are reached in the partition's calendar slots (R291). -/
def State.xlateLane (s : State) (id l : Nat) : State :=
  match tfind s.mops id with
  | none => s
  | some o =>
    if !o.kind.isAccess || !(o.lanes &&& ~~~o.xlated &&& ~~~o.faulted).getLsbD l then s
    else
      match inheritedCause s id o l with
      | some c => s.faultLane id l c
      | none =>
        if !slotOpen s o.part && (List.range o.pieces).any (fun k => needsWalk s o.cluster o.who o.kind.acc (o.pieceVa l k)) then s
        else
        match xlateLanePieces o.cluster o.who o.kind.acc (o.pieceVa l) (List.range o.pieces) s with
        | (s, .ok ps) =>
          { s with mops := tput s.mops id { o with xlated := o.xlated ||| laneBit l,
                                                   pa := ps.foldl (fun t e => tput t (4 * l + e.1) e.2) o.pa } }
        | (s, .error r) =>
          (s.sketchEvent o.cluster 0x02 o.pc.toNat 1).faultLane id l (0x060 + 4 * r + o.kind.acc.num)

/-- Operation id holds later memory and engine issue from now on (R138); those that are over are forgotten. -/
def Warp.hold (s : State) (w : Warp) (id : Nat) (holds : Bool) : Warp :=
  let open_ := w.holdOp.filter fun n => (tfind s.mops n).isSome || (tfind s.replies n).isSome
  if holds then { w with holdOp := open_ ++ [id] } else w

/-- The registers of a result await operation id (R139). -/
def Warp.empties (w : Warp) (id dest words : Nat) (act : Lanes) : Warp := { w with r := w.r.emptyCode id dest words act }

/-- Issue of a memory instruction that goes into flight: its sources are read, its entry taken, its destination marked
empty (R137 to R139). With no active lane it does nothing (R166). Precise memory mode translates its lanes at once (log 20, DEDUCED). -/
def State.issueMem (s : State) (w : Warp) (i : Instr) (f : Syl) (m : MemForm) (h : Shape) : State :=
  let act := w.r.active f.g1 f.g2
  if act = 0 then s.countMem
  else
    let sc := memScalar i h f
    let id := s.nextId
    let s0 := s
    let o := memOpOf s w i f m sc act
    let s := { s with mops := tput s.mops id o, nextId := id + 1 }
    let s := if w.precise then (laneList o.lanes).foldl (fun s l => s.xlateLane id l) s else s
    let s := s.modWarp s.cur fun w =>
      (w.hold s0 id m.kind.holds).empties id o.dest o.words act
    s.countMem

/-! ### Requests: counters and buckets (R250, R252, R296) -/

/-- Units of 2^lg bytes of named memory that lane l touches. -/
def MemOp.units (o : MemOp) (lg l : Nat) : List Nat :=
  ((List.range o.pieces).filterMap fun k => (tfind o.pa (4 * l + k)).map fun p => p / 2 ^ lg).dedup

/-- Units that lane l is the first of the instruction's performed lanes to touch. -/
def MemOp.freshUnits (o : MemOp) (lg l : Nat) : List Nat :=
  (o.units lg l).filter fun u => !(laneList o.die).any fun q => (o.units lg q).contains u

def MemKind.counted (k : MemKind) : Bool :=
  match k with
  | .load => true
  | .ldacq => true
  | .store => true
  | .strel => true
  | .atom => true
  | .red => true
  | _ => false

/-- Count one remote line for the issuing cluster's die. -/
def State.countRemote (s : State) (cl pc : Nat) : State :=
  (s.modDie (cl / 80) fun d => { d with rreq := (d.rreq + 1) % 2 ^ 64 }).sketchEvent cl 0x04 pc 1

/-- Count one line for the issuing cluster's die. -/
def State.countLine (s : State) (cl pc line : Nat) : State :=
  let k := 128 * line
  if isWindow k || homeOf k != cl / 80 then s.countRemote cl pc
  else s.modDie (cl / 80) fun d => { d with lreq := (d.lreq + 1) % 2 ^ 64 }

def State.countLane (s : State) (o : MemOp) (l : Nat) : State :=
  if o.kind.counted then (o.freshUnits 7 l).foldl (fun s u => s.countLine o.cluster o.pc.toNat u) s else s

/-- Sixteenths of a token in the bucket of a port. -/
def Context.balance (c : Context) (port : Nat) : Nat := 16 * c.cap - tget 0 c.used port

/-- The bucket of a port pays for n units of 32 bytes; a context without a capacity is not limited (log 11, DEDUCED). -/
def bucketPays (s : State) (ctx port n : Nat) : Bool :=
  let c := s.context ctx
  ctx == Config.hvContext || c.cap == 0 || decide (16 * n ≤ c.balance port)

def State.bucketCharge (s : State) (ctx port n : Nat) : State :=
  let c := s.context ctx
  if ctx == Config.hvContext || c.cap == 0 || n == 0 then s
  else { s with ctxs := tset Context.absent s.ctxs ctx { c with used := tset 0 c.used port (tget 0 c.used port + 16 * n) } }

/-- Every port of a list pays its tokens. -/
def bucketsPay (s : State) (ctx : Nat) (ts : List (Nat × Nat)) : Bool := ts.all fun e => bucketPays s ctx e.1 e.2
def State.bucketsCharge (s : State) (ctx : Nat) (ts : List (Nat × Nat)) : State :=
  ts.foldl (fun s e => s.bucketCharge ctx e.1 e.2) s

/-- The L2 port that serves a named byte for a cluster: that of its home die, or of the issuing die for a window (R250).
(log 19, DEDUCED) -/
def portOf (cl k : Nat) : Nat := if isWindow k then cl / 80 else homeOf k

/-- Tokens at each port for units of 32 bytes. -/
def unitTokens (cl : Nat) (us : List Nat) : List (Nat × Nat) :=
  ((us.map fun u => portOf cl (32 * u)).dedup).map fun p => (p, (us.filter fun u => portOf cl (32 * u) == p).length)

/-! ### Covered sets (R260) -/

/-- An earlier operation has been performed at the scope in the lanes waited for; a copy operation's posted write is
performed at `.sys` when it is reported. -/
def coverDone (s : State) (scope : Nat) (c : Nat × Lanes) : Bool :=
  match tfind s.mops c.1 with
  | none => decide (scope < 4) || (tfind s.posted c.1).isNone
  | some o => decide (c.2 &&& ~~~o.performed scope = 0)

/-- The stores that a warp comes after; those of a saved warp are kept with its team (R348). -/
def sawOf (s : State) (g : Nat) : List Saw :=
  ((ownerOf s g).map fun w => w.saw).getD []

/-- The covered set as it now stands: what the lanes issued before, with the writes of consumed engine operations, and the stores that
these accesses have read or that happen before them (R260). -/
def Release.now (c : Release) (s : State) : List (Nat × Lanes) :=
  c.cover ++ (sawOf s c.warp).filterMap fun e =>
    if e.reader ≤ c.seq ∧ e.acc &&& c.act ≠ 0 then some (e.op, e.lanes) else none

/-- The whole covered set has been performed at a scope (R260). -/
def Release.done (c : Release) (s : State) (scope : Nat) : Bool := (c.now s).all (coverDone s scope)

/-- RFENCE and ICINV wait for accesses of their own lanes alone (R147, R159). -/
def MemOp.release (o : MemOp) : Release :=
  { warp := o.warp, seq := o.seq, act := if o.kind = .rfence ∨ o.kind = .icinv then 0 else o.act, cover := o.cover }

def coverNow (s : State) (o : MemOp) : List (Nat × Lanes) := o.release.now s

/-- What a release or a fence covers has been performed at its scope. -/
def released (s : State) (o : MemOp) : Bool := o.release.done s o.scope

/-- The write to a window meets the n bytes at k. -/
def Posted.meetsPlace (p : Posted) (k n : Nat) : Bool :=
  isWindow k && bitsOf (keyPa k) 46 6 == p.window &&
    p.bytes.any fun e => decide (bitsOf (keyPa k) 0 46 ≤ p.offset + e.1) && decide (p.offset + e.1 < bitsOf (keyPa k) 0 46 + n)

/-- The write to a window has been sent and its report has not arrived, and it meets bytes of lane l. -/
def Posted.meetsLane (p : Posted) (o : MemOp) (l : Nat) : Bool :=
  p.sent && (List.range o.size).any fun j =>
    match o.byteKey l j with
    | some k => isWindow k && bitsOf (keyPa k) 46 6 == p.window && (tfind p.bytes (bitsOf (keyPa k) 0 46 - p.offset)).isSome &&
        decide (p.offset ≤ bitsOf (keyPa k) 0 46)
    | none => false

/-- The writes whose bytes lane l of a read may take before they have been performed at every scope: those that its cluster sees, and
those on their way to the peer that answers it (R260 item 2). (log 17, DEDUCED) -/
def storesAt (s : State) (cl : Nat) (ps : List (Nat × Nat)) : List (Nat × Lanes) :=
  (s.mops.filterMap fun e =>
    let m := (if e.2.cluster = cl then e.2.visible else e.2.visible &&& e.2.die) &&& maskOf fun q =>
      (e.2.places q).any fun a => ps.any fun b => rangesMeet a.1 a.2 b.1 b.2
    if m ≠ 0 then some (e.1, m) else none) ++
  s.posted.filterMap fun e =>
    if e.2.warp.isNone ∧ e.2.sent ∧ ps.any (fun b => e.2.meetsPlace b.1 b.2) then some (e.1, 0) else none

/-- Lanes of an access read their bytes: what they come after is noted (R260, R261). -/
def State.noteRead (s : State) (o : MemOp) (acc : Lanes) (ps : List (Nat × Nat)) : State :=
  (s.noteStores o.warp o.seq acc (storesAt s o.cluster ps)).hearAt o acc ps

/-- A release publishes its covered set with the bytes that it writes, and an access that a fence comes before that of the fence (R259,
R261). -/
def State.publish (s : State) (o : MemOp) (l : Nat) (ps : List (Nat × Nat)) : State :=
  match tfind s.warps o.warp with
  | none => s
  | some w =>
    let s := if o.kind = .strel ∨ o.kind = .qpost ∨ o.kind = .tlsig then s.publishAt o.warp w.team o.scope (coverNow s o) ps else s
    w.fenced.foldl (fun s f =>
      if f.seq < o.seq ∧ f.act &&& o.accLanes l ≠ 0 then s.publishAt o.warp w.team f.scope f.cover ps else s) s

/-- A FENCE has completed: its lanes acquire what they have read of other releases, and what it covers goes with what they write from now
on (R261). -/
def State.fenceOver (s : State) (o : MemOp) : State :=
  match ownerOf s o.warp with
  | none => s
  | some w =>
    let cover := (coverNow s o).filter (stillOpen s)
    let heard := (w.heard.filter fun h => decide (h.reader < o.seq) && h.acc &&& o.act != 0 &&
      h.what.reaches o.scope o.warp w.team).flatMap fun h => h.what.cover
    let s := s.noteStores o.warp w.memSeq o.act heard
    if cover.isEmpty then s
    else s.modOwner o.warp fun w =>
      { w with fenced := (w.fenced.filter fun f => f.cover.any (stillOpen s)) ++
          [{ seq := o.seq, act := o.act, scope := o.scope, cover := cover }] }

/-- Every store that a warp comes after has been performed at a scope. -/
def sawDone (s : State) (w : Warp) (scope : Nat) : Bool := w.saw.all fun e => coverDone s scope (e.op, e.lanes)

/-! ### Tiles -/

/-- The allocation with identity gen, current or freed. -/
def findHandle (s : State) (team gen : Nat) : Option Handle :=
  match (tfind s.teams team).bind fun t => (t.htab.find? fun e => e.2.gen == gen).map (·.2) with
  | some h => some h
  | none => (tfind s.oldHandles gen).map (·.h)

/-- The zero fill of the allocation is over: its status has been delivered (R254). -/
def handleFilled (s : State) (team gen : Nat) : Bool :=
  match findHandle s team gen with
  | some q => q.fill == 0 || (tfind s.replies q.fill).isNone
  | none => true

def State.modHandle (s : State) (team gen : Nat) (f : Handle → Handle) : State :=
  match (tfind s.teams team).bind fun t => t.htab.find? fun e => e.2.gen == gen with
  | some _ => s.modTeam team fun t => { t with htab := t.htab.map fun e => if e.2.gen = gen then (e.1, f e.2) else e }
  | none =>
    match tfind s.oldHandles gen with
    | some o => { s with oldHandles := tput s.oldHandles gen { o with h := f o.h } }
    | none => s

def Handle.read (h : Handle) (o n : Nat) : List Byte := (List.range n).map fun i => tget 0 h.bytes (o + i)
def Handle.write (h : Handle) (o : Nat) (bs : List Byte) : Handle :=
  { h with bytes := bs.zipIdx.foldl (fun t e => tset 0 t (o + e.2) e.1) h.bytes }

/-- Fields of a tensor shape record (R322). -/
structure Tensor where
  base : Nat
  esize : Nat
  rank : Nat
  ext : List Nat
  stride : List Int
  box : List Nat
  fill : Nat
  deriving DecidableEq, Repr

def tensorOf (r : List Byte) : Tensor :=
  { base := recField r 0 8, esize := recField r 8 1, rank := recField r 9 1,
    ext := (List.range 4).map fun d => recField r (0x10 + 4 * d) 4,
    stride := (List.range 4).map fun d => asSigned 64 (recField r (0x20 + 8 * d) 8),
    box := (List.range 4).map fun d => recField r (0x40 + 4 * d) 4, fill := recField r 0x50 8 }

/-- Rows that a copy operation moves (R175, R176). -/
def CopyOp.rows (c : CopyOp) (t : Tensor) : Nat :=
  match c.dir with
  | .gather => laneCount c.lanes
  | .scatter => laneCount c.lanes
  | _ => t.box.getD 1 1 * t.box.getD 2 1 * t.box.getD 3 1

def CopyOp.hoff (c : CopyOp) : Nat := (tget 0 c.shadow 5).toNat
def Tensor.rowLen (t : Tensor) : Nat := t.box.getD 0 1 * t.esize
def CopyOp.pitch (c : CopyOp) (t : Tensor) : Nat :=
  if tget 0 c.shadow 6 = 0 then t.rowLen else (tget 0 c.shadow 6).toNat

/-- Bytes of the tile range from HOFF; all of the handle until the record is known. -/
def CopyOp.tileBytes (c : CopyOp) : Nat :=
  if c.record.isEmpty then 2 ^ 32
  else
    let t := tensorOf c.record
    (c.rows t - 1) * c.pitch t + t.rowLen

/-- An engine operation issued before id owns bytes of the handle (R140): a walk the rows of all its lanes until its flag is set (R302). -/
def tileOwned (s : State) (id gen off n : Nat) : Bool :=
  (s.copies.any fun e => e.1 < id && e.2.handle == gen && rangesMeet off n e.2.hoff e.2.tileBytes) ||
  (s.walks.any fun e => e.1 < id && e.2.handle == gen &&
    (laneList e.2.lanes).any fun l => rangesMeet off n (1024 * l) 1024)

/-! ### Performing (R256, R257) -/

/-- The lines of lane l are not owned by an engine operation (R140, R244). -/
def linesFree (s : State) (o : MemOp) (l : Nat) : Bool :=
  (o.units 7 l).all fun u => (dirOf s u).owner.isNone

/-- Precise memory mode performs the oldest instruction alone, and none of its lanes before every one has translated (R165, R346). -/
def preciseOk (s : State) (id : Nat) (o : MemOp) : Bool :=
  match tfind s.warps o.warp with
  | none => true
  | some w => !w.precise || (decide (o.lanes &&& ~~~o.xlated = 0) && decide (o.faulted = 0) &&
      !s.mops.any fun e => e.1 < id && e.2.warp == o.warp && e.2.kind.isAccess && !e.2.settled)

def MemOp.usesWindow (o : MemOp) (l : Nat) : Bool := (List.range o.pieces).any fun k =>
  match tfind o.pa (4 * l + k) with
  | some p => isWindow p
  | none => false

/-- The read-only L1 holds the line that lane l reads (R242). -/
def roHit (s : State) (o : MemOp) (l : Nat) : Bool :=
  o.ro && match tfind o.pa (4 * l) with
    | some k => (s.cluster o.cluster).ro.any fun e => e.1 == lineOf k
    | none => false

/-- Tokens that lane l's access costs at each port until it has paid (R250): its units of 32 bytes that no earlier lane has paid for, for a ring those of
the descriptor and its entries; none for a hit in the read-only L1, and of a store to a window the units at home alone, for its posted
writes pay themselves. (log 19, DEDUCED) -/
def laneTokens (s : State) (o : MemOp) (l : Nat) : List (Nat × Nat) :=
  let us := { o with die := o.die ||| o.paid }.freshUnits 5 l
  if o.paid.getLsbD l then [] else
  match o.kind with
  | .qpost | .qtake => [(((unitTokens o.cluster us).headD (o.cluster / 80, 0)).1, 2 + (laneCount o.lanes + 3) / 4)]
  | .store | .strel => unitTokens o.cluster (us.filter fun u => !isWindow (32 * u))
  | _ => if roHit s o l then [] else unitTokens o.cluster us

/-- Every lane whose bytes could be lane l's has its place: the earlier accesses of the warp, and for a write the lower lanes. -/
def placesKnown (s : State) (id : Nat) (o : MemOp) (l : Nat) : Bool :=
  let todo := fun p : MemOp => p.lanes &&& ~~~p.xlated &&& ~~~p.faulted
  o.kind.isTile ||
    ((s.mops.all fun e => decide (id ≤ e.1) || e.2.warp != o.warp || !e.2.kind.isAccess || decide (todo e.2 = 0)) &&
      (!o.kind.isWrite || decide (todo o &&& maskOf (fun q => decide (q < l)) = 0)))

/-- Lane l waits for older accesses: for a load or a store's entry to the buffer those not performed at `.team`, for an
atomic those not at the home or the peer. -/
def laneOrdered (s : State) (id : Nat) (o : MemOp) (l : Nat) : Bool :=
  let need := fun p : MemOp =>
    match o.kind with
    | .load => p.lanes &&& ~~~p.team
    | .ldacq => p.lanes &&& ~~~p.team
    | .store => p.lanes &&& ~~~p.team
    | .strel => p.lanes &&& ~~~p.team
    | _ => p.lanes &&& ~~~(if o.usesWindow l then p.sys else p.die)
  placesKnown s id o l && !olderMeets s id o l need && !lowerMeets o l (o.lanes &&& ~~~o.team)

/-- An engine's write of the cluster to bytes of lane l is sent and not reported. -/
def engineWriteMeets (s : State) (o : MemOp) (l : Nat) : Bool :=
  s.posted.any fun e => (List.range o.size).any fun j =>
    match o.byteKey l j with
    | some k => (e.2.byteFor o.cluster k).isSome
    | none => false

/-- No write that the cluster sees to the lane's bytes is still on its way to the home or the peer: an atomic there sees them all. -/
def bufferClear (s : State) (o : MemOp) (l : Nat) : Bool :=
  (s.mops.all fun e => e.2.cluster != o.cluster ||
    !(laneList e.2.visible).any fun q => o.lanesMeet e.2 l q) && !engineWriteMeets s o l

/-- No engine's write of the cluster to bytes of lane l is still to be sent: a store enters the buffer after it (R257). -/
def enginesSent (s : State) (o : MemOp) (l : Nat) : Bool :=
  s.posted.all fun e => e.2.sent || e.2.warp.isSome || e.2.cluster != o.cluster || !{ e.2 with sent := true }.meetsLane o l

/-- Stores enter the buffer in some order and leave it in that order where they overlap. -/
def drainOrdered (s : State) (o : MemOp) (l : Nat) : Bool :=
  s.mops.all fun e => e.2.cluster != o.cluster ||
    !(laneList e.2.buffered).any fun q => tget 0 e.2.stamps q < tget 0 o.stamps l && o.lanesMeet e.2 l q

/-- The named bytes of the entries that a post fills or a take reads. -/
def entryPlaces (s : State) (o : MemOp) : List Nat :=
  match ringNamed s o with
  | none => []
  | some q =>
    let n := if o.kind = .qpost then laneCount o.lanes else min (laneCount o.lanes) ((q.tail + 2 ^ 64 - q.head) % 2 ^ 64)
    let at1 := if o.kind = .qpost then q.tail else q.head
    (List.range n).filterMap fun i =>
      match (translate s o.cluster o.who .read (q.entryVa (at1 + i))).2 with
      | .ok k => some k
      | _ => none

/-- No engine owns an entry's line (R244), and no store to an entry is on its way to the home (R257). -/
def entriesFree (s : State) (o : MemOp) : Bool :=
  (entryPlaces s o).all fun k => (dirOf s (lineOf k)).owner.isNone &&
    !lineTested s (lineOf k) && (List.range 8).all fun j => (bufferByte s o.cluster (k + j)).isNone

/-- The allocation that a tile access names. -/
def MemOp.tile (s : State) (o : MemOp) : Option Handle := (tfind s.warps o.warp).bind fun w => findHandle s w.team o.handle

/-- The scratchpad banks of the words of lane l's tile access (R143). -/
def tileBanks (s : State) (o : MemOp) (l : Nat) : List Nat :=
  match o.tile s with
  | some h => bankPlaces o.cluster h (tget 0 o.addr l).toNat o.size
  | none => []


/-- The banks of lane l's access have been taken in this real cycle. -/
def State.takeBanks (s : State) (o : MemOp) (l : Nat) : State :=
  s.modCluster o.cluster fun c => { c with tileTaken := (tileBanks s o l).map (fun b => (o.cycle, subOf o.warp, b)) ++ c.tileTaken }

/-- A bank of lane l's bytes is being tested (R352). -/
def tileTested (s : State) (o : MemOp) (l : Nat) : Bool :=
  !s.tests.isEmpty && match (tfind s.warps o.warp).bind fun w => findHandle s w.team o.handle with
    | some h => bankTested s o.cluster h (tget 0 o.addr l).toNat o.size
    | none => false

/-- The tile would take lane l: no engine operation owns its bytes, the zero fill is over, no bank of it is being tested. -/
def tileFree (s : State) (id : Nat) (o : MemOp) (l : Nat) : Bool :=
  let team := ((tfind s.warps o.warp).map fun w => w.team).getD 0
  !tileOwned s id o.handle (tget 0 o.addr l).toNat o.size && handleFilled s team o.handle && !tileTested s o l

/-- A tile access issued in the same real cycle by a lower sub-core names a word of a bank that this access names in some lane: it goes
first, and this whole access is performed a cycle later (R253). A lane of the earlier access that waits for something else is not waited
for. (log 88, DEDUCED) -/
def tileTied (s : State) (o : MemOp) : Bool :=
  let banks := (laneList o.lanes).flatMap (tileBanks s o)
  (s.cluster o.cluster).tileTaken.any (fun e => e.1 == o.cycle && decide (e.2.1 < subOf o.warp) && banks.contains e.2.2) ||
  s.mops.any fun e => e.2.kind.isTile && e.2.cluster == o.cluster && e.2.cycle == o.cycle && decide (subOf e.2.warp < subOf o.warp) &&
    (laneList (e.2.lanes &&& ~~~e.2.team &&& ~~~e.2.faulted)).any fun q =>
      (tileBanks s e.2 q).any (fun b => banks.contains b) && preciseOk s e.1 e.2 && laneOrdered s e.1 e.2 q && tileFree s e.1 e.2 q

/-- A tile access is taken by the tile, and none goes before it. -/
def tileReady (s : State) (id : Nat) (o : MemOp) (l : Nat) : Bool := tileFree s id o l && !tileTied s o

/-- The device's memory takes lane l at these ports: no engine owns its lines, none of them is being tested, the calendar and the
buckets let it through; a hit in the read-only L1 needs neither (R244, R250, R291, R352). -/
def portReady (s : State) (o : MemOp) (l : Nat) (ts : List (Nat × Nat)) : Bool :=
  linesFree s o l && ((o.units 7 l).all fun u => !lineTested s u) && (roHit s o l || (slotOpen s o.part && bucketsPay s o.ctx ts))

/-- The lanes of a store to a window that are in the buffer: they leave together (R389). -/
def MemOp.leaving (o : MemOp) : Lanes := maskOf fun q => o.buffered.getLsbD q && o.usesWindow q

/-- Units of 2^lg bytes at home that the lanes which leave together are the first of the instruction to touch. -/
def MemOp.leavingHome (o : MemOp) (lg : Nat) : List Nat :=
  ((laneList o.leaving).flatMap (o.units lg)).dedup.filter fun u =>
    !isWindow (2 ^ lg * u) && !(laneList o.die).any fun q => (o.units lg q).contains u

/-- Every lane of a store to a window is in the buffer, faulted or none: its posted writes can be formed, and what of its lanes lies at
home can be performed (R389). -/
def windowReady (s : State) (id : Nat) (o : MemOp) (l : Nat) : Bool :=
  decide (o.lanes &&& ~~~(o.team ||| o.faulted) = 0) &&
  (!s.posted.any fun e => e.2.op == id && e.2.lanes.getLsbD l) &&
  bucketsPay s o.ctx (unitTokens o.cluster (o.leavingHome 5)) &&
  (o.leavingHome 7).all fun u => (dirOf s u).owner.isNone && !lineTested s u && slotOpen s o.part

/-- The access of lane l can be performed now at its next stage, at ports that take these tokens. -/
def laneReadyAt (s : State) (id : Nat) (o : MemOp) (l : Nat) (ts : List (Nat × Nat)) : Bool :=
  (o.lanes &&& o.xlated &&& ~~~o.faulted).getLsbD l && preciseOk s id o &&
  match o.kind with
  | .load => !o.team.getLsbD l && laneOrdered s id o l && portReady s o l ts
  | .ldacq => !o.team.getLsbD l && laneOrdered s id o l && portReady s o l ts
  | .store =>
    if o.team.getLsbD l then
      !o.die.getLsbD l && drainOrdered s o l && (if o.usesWindow l then windowReady s id o l else portReady s o l ts)
    else laneOrdered s id o l && enginesSent s o l
  | .strel =>
    if o.team.getLsbD l then
      !o.die.getLsbD l && drainOrdered s o l && (if o.usesWindow l then windowReady s id o l else portReady s o l ts)
    else laneOrdered s id o l && enginesSent s o l && released s o
  | .tileLoad => !o.team.getLsbD l && laneOrdered s id o l && tileReady s id o l
  | .tileStore => !o.team.getLsbD l && laneOrdered s id o l && tileReady s id o l
  | .tileAtom => !o.team.getLsbD l && laneOrdered s id o l && tileReady s id o l
  | .qpost => !o.team.getLsbD l && laneOrdered s id o l && portReady s o l ts && released s o && bufferClear s o l && entriesFree s o
  | .qtake => !o.team.getLsbD l && laneOrdered s id o l && portReady s o l ts && bufferClear s o l && entriesFree s o
  | .tlsig => !o.team.getLsbD l && laneOrdered s id o l && portReady s o l ts && released s o && bufferClear s o l
  | .fence => false
  | .rfence => false
  | .icinv => false
  | .pref => false
  | _ => !o.team.getLsbD l && laneOrdered s id o l && portReady s o l ts && bufferClear s o l

/-- The access of lane l can be performed now at its next stage. -/
def laneReady (s : State) (id : Nat) (o : MemOp) (l : Nat) : Bool := laneReadyAt s id o l (laneTokens s o l)

/-- The selected warps of a partition's debug features on a die (R365). -/
def debugSelects (s : State) (g part : Nat) : Bool :=
  let c := (pdReg s 0x1A0 part (dieOf g) 0).toNat
  c.testBit 33 || (bitsOf c 20 7 == g / 64 % 80 && bitsOf c 27 2 == g / 16 % 4 && bitsOf c 29 4 == g % 16)

/-- A write of n bytes at va by an operation touches the watched range (R366); handler code never stops (R365). -/
def watched (s : State) (o : MemOp) (va n : Nat) : Bool :=
  let c := (pdReg s 0x1A0 o.part (dieOf o.warp) 0).toNat
  let a := (pdReg s 0x1A1 o.part (dieOf o.warp) 0).toNat
  c.testBit 3 && debugSelects s o.warp o.part && o.level == .user && rangesMeet va n (bitsOf a 0 56) (2 ^ bitsOf a 56 5)

/-- Lane l's write touches the watched range. -/
def watchHit (s : State) (o : MemOp) (l : Nat) : Bool := (List.range o.pieces).any fun k => watched s o (o.pieceVa l k) o.pieceBytes

def MemOp.allDone (o : MemOp) (m : Lanes) : MemOp :=
  { o with team := o.team ||| m, die := o.die ||| m, sys := o.sys ||| m }

/-- A die other than the home may keep a clean copy of a line that it reads; the home records it (R241). -/
def State.shareLine (s : State) (die line : Nat) : State :=
  let e := dirOf s line
  if homeOf (128 * line) = die ∨ die ∈ e.sDies then s else s.setDir line { e with sDies := e.sDies ++ [die] }

/-- A coherent read of a line for a die: it starts a combine (R249). -/
def State.readLine (s : State) (die line : Nat) : State :=
  if isWindow (128 * line) then s else (s.combineLine line).shareLine die line

/-- Lane l's bytes as the cluster reads them (R256); a window's come from the answer (R389). -/
def State.readLane (s : State) (o : MemOp) (l answer : Nat) : State × Nat :=
  let s := (o.units 7 l).foldl (fun s u => s.readLine (o.cluster / 80) u) s
  (s, bytesToNat ((List.range o.size).map fun j =>
    match o.byteKey l j with
    | none => 0
    | some k =>
      match bufferByte s o.cluster k with
      | some b => b
      | none => if isWindow k then BitVec.ofNat 8 (answer / 256 ^ j) else s.homeByte k))

/-- A line of the read-only L1: the least recently used of 384 leaves (R242). -/
def roPut (line : Nat) (bs : List Byte) (t : List (Nat × List Byte)) : List (Nat × List Byte) :=
  ((line, bs) :: t.filter fun e => e.1 ≠ line).take 384

/-- A line as its home holds it; that of a peer is a free value (R242; log 13, DESIGN CHOICE). -/
def State.lineAtHome (s : State) (die line : Nat) : State × List Byte :=
  if isWindow (128 * line) then
    ({ s with free := s.free + 128 }, (List.range 128).map fun i => (Config.freeValue (s.free + i)).extractLsb' 0 8)
  else
    let s := s.readLine die line
    (s, s.homeBytes (128 * line) 128)

/-- Read through the read-only L1 (R142, R242): a hit returns what the line held when it was filled, from the home or from the peer. -/
def State.readRo (s : State) (o : MemOp) (l answer : Nat) : State × Nat :=
  match tfind o.pa (4 * l) with
  | none => (s, 0)
  | some k =>
    let line := lineOf k
    match (s.cluster o.cluster).ro.find? fun e => e.1 == line with
    | some e =>
      (s.modCluster o.cluster fun c => { c with ro := roPut line e.2 c.ro }, recField e.2 (k % 128) o.size)
    | none =>
      let q := s.lineAtHome (o.cluster / 80) line
      let at1 := k % 128
      let bs := if isWindow k then q.2.take at1 ++ natToBytes o.size answer ++ q.2.drop (at1 + o.size) else q.2
      (q.1.modCluster o.cluster fun c => { c with ro := roPut line bs c.ro }, recField bs at1 o.size)

/-- A performed lane of the instruction that reads the same bytes: lanes of one load agree (R141). -/
def MemOp.twin (o : MemOp) (l : Nat) : Option Nat :=
  (laneList (o.team &&& ~~~o.faulted)).find? fun q =>
    if o.kind.isTile then tget 0 o.addr q == tget 0 o.addr l else o.pieces == 1 && tfind o.pa (4 * q) == tfind o.pa (4 * l)

/-- The value that lane l of a load takes; the stores that it may take it from, and what their writers published, are noted. -/
def State.loadLane (s : State) (o : MemOp) (l answer : Nat) : State × Nat :=
  let s := s.noteRead o (o.accLanes l) (o.places l)
  match o.twin l with
  | some q => (s, (tget 0 o.vals q).toNat)
  | none => if o.ro then s.readRo o l answer else s.readLane o l answer

/-- The bytes of a store's lanes in one line, by offset. -/
def MemOp.lineBytes (o : MemOp) (m : Lanes) (line : Nat) : Table Byte :=
  (laneList m).foldl (fun t l => (List.range o.size).foldl (fun t j =>
    match o.byteKey l j with
    | some k => if lineOf k = line then tput t (k % 128) (BitVec.ofNat 8 ((tget 0 o.data l).toNat / 256 ^ j)) else t
    | none => t) t) []

/-- Drain the pieces of lane l of a buffered store that lie at home. -/
def State.drainLane (s : State) (o : MemOp) (l : Nat) : State :=
  (List.range o.pieces).foldl (fun s k =>
    match tfind o.pa (4 * l + k) with
    | none => s
    | some p => if isWindow p then s else s.homeWrite p (natToBytes o.pieceBytes ((tget 0 o.data l).toNat / 256 ^ (k * o.pieceBytes)))) s

/-- A store to a window leaves the buffer: one posted write for each line behind a window, the rest of its lanes at home, where it is
counted (R296, R389). -/
def State.postWindow (s : State) (id : Nat) (o : MemOp) : State :=
  let m := o.leaving
  let s := (o.leavingHome 7).foldl (fun s u => s.countLine o.cluster o.pc.toNat u) (s.bucketsCharge o.ctx (unitTokens o.cluster (o.leavingHome 5)))
  let s := (laneList m).foldl (fun s l => s.drainLane o l) s
  let lines := (((laneList m).flatMap fun l => o.units 7 l).filter fun u => isWindow (128 * u)).dedup
  lines.foldl (fun s u =>
    let lanes := m &&& maskOf fun l => (o.units 7 l).contains u
    let p : Posted := { warp := some o.warp, cluster := o.cluster, ctx := o.ctx, part := o.part, copy := none, consumed := false, op := id, lanes := lanes, window := bitsOf (keyPa (128 * u)) 46 6,
                        offset := bitsOf (keyPa (128 * u)) 0 46, bytes := o.lineBytes lanes u, sent := false }
    { s with posted := tput s.posted s.nextId p, nextId := s.nextId + 1 }) s

/-- The two operands of lane l's atomic operation: the data and the comparand (R149). -/
def MemOp.operands (o : MemOp) (l : Nat) : Nat × Nat :=
  let bits := 8 * o.size
  let d := (tget 0 o.data l).toNat
  if o.fn = 9 then (d / 2 ^ bits % 2 ^ bits, d % 2 ^ bits) else (d % 2 ^ bits, 0)

/-- One atomic operation on lane l at its home: the state and the old value (R150); a peer has performed it with its answer. -/
def State.atomicLane (s : State) (o : MemOp) (l : Nat) (answer : Nat) : State × Nat :=
  match tfind o.pa (4 * l) with
  | none => (s, 0)
  | some k =>
    let bits := 8 * o.size
    let d := o.operands l
    if isWindow k then (s, answer % 2 ^ bits)
    else
      let r := s.homeRead k o.size
      let old := bytesToNat r.2
      (r.1.homeWrite k (natToBytes o.size (atomicNew o.fn bits old d.1 d.2)), old)

def tileAtomic (o : MemOp) (l : Nat) (h : Handle) : Handle × Nat :=
  let d := o.operands l
  let off := (tget 0 o.addr l).toNat
  let old := bytesToNat (h.read off o.size)
  (h.write off (natToBytes o.size (atomicNew o.fn (8 * o.size) old d.1 d.2)), old)

/-! ### Posts, takes and counters (R155 to R158) -/

/-- Write a list of words at virtual addresses, or the first fault (reason, kind). -/
def writeWords (cl : Nat) (who : Who) : List (Nat × Nat) → State → State × Option Nat
  | [], s => (s, none)
  | (va, v) :: t, s =>
    match writeVa cl who s va 8 (fieldAt 0 8 v) with
    | (s, none) => writeWords cl who t s
    | (s, some e) => (s, some (0x060 + 4 * e.1 + 1))

/-- All the entries' pages translate for the access, or the first fault. -/
def wordsOk (cl : Nat) (who : Who) (acc : Acc) : List Nat → State → State × Option Nat
  | [], s => (s, none)
  | va :: t, s =>
    match xlateRange cl who acc s va 8 with
    | (s, .ok _) => wordsOk cl who acc t s
    | (s, .error e) => (s, some (0x060 + 4 * e.1 + acc.num))

/-- Read a list of words, or the first fault: a peer may refuse one (R390). -/
def readWords (cl : Nat) (who : Who) : List Nat → State → State × Except Nat (List Nat)
  | [], s => (s, .ok [])
  | va :: t, s =>
    match readRecord cl who s va 8 with
    | (s, .ok bs) =>
      (match readWords cl who t s with
       | (s, .ok ws) => (s, .ok (bytesToNat bs :: ws))
       | (s, .error c) => (s, .error c))
    | (s, .error e) => (s, .error (0x060 + 4 * e.1))

/-- Perform a post at its home (R156): the state and the status, or a cause. -/
def postRing (s : State) (o : MemOp) : State × Except Nat Nat :=
  let va := (tget 0 o.addr (lowLane o.lanes)).toNat
  match readRecord o.cluster o.who s va 64 with
  | (s, .error e) => (s, .error (0x060 + 4 * e.1 + 2))
  | (s, .ok bs) =>
    let q := ringOf bs
    let k := laneCount o.lanes
    if !q.valid then (s, .error 0x086)
    else if 2 ^ q.caplog < (q.tail + 2 ^ 64 - q.head) % 2 ^ 64 + k then (s, .ok 1)
    else
      let ws := (laneList o.lanes).zipIdx.map fun e => (q.entryVa (q.tail + e.2), (tget 0 o.data e.1).toNat % 2 ^ 64)
      match wordsOk o.cluster o.who .write (ws.map (·.1)) s with
      | (s, some c) => (s, .error c)
      | (s, none) =>
        let s := (writeWords o.cluster o.who ws s).1
        ((writeVa o.cluster o.who s (va + 0x18) 8 (fieldAt 0 8 ((q.tail + k) % 2 ^ 64))).1, .ok 0)

/-- Perform a take at its home (R157): payloads by lane, or a cause. -/
def takeRing (s : State) (o : MemOp) : State × Except Nat (Table (BitVec 128)) :=
  let va := (tget 0 o.addr (lowLane o.lanes)).toNat
  match readRecord o.cluster o.who s va 64 with
  | (s, .error e) => (s, .error (0x060 + 4 * e.1 + 2))
  | (s, .ok bs) =>
    let q := ringOf bs
    let j := min (laneCount o.lanes) ((q.tail + 2 ^ 64 - q.head) % 2 ^ 64)
    let vas := (List.range j).map fun i => q.entryVa (q.head + i)
    if !q.valid then (s, .error 0x086)
    else
      match wordsOk o.cluster o.who .read vas s with
      | (s, some c) => (s, .error c)
      | (s, none) =>
        match readWords o.cluster o.who vas s with
        | (s, .error c) => (s, .error c)
        | (s, .ok ws) =>
          let vals := (laneList o.lanes).zipIdx.filterMap fun e =>
            let v := if e.2 < j then ws.getD e.2 0 else 2 ^ 63
            if v = 0 then none else some (e.1, BitVec.ofNat 128 v)
          ((writeVa o.cluster o.who s (va + 0x10) 8 (fieldAt 0 8 ((q.head + j) % 2 ^ 64))).1, .ok vals)

/-- The peer has to say the old value before a TLSIG may go on: a user's `.set` that could move the counter backwards (R158). -/
def MemOp.askFirst (o : MemOp) : Bool := o.kind == .tlsig && o.fn == 8 && o.level == .user

/-- The request of an atomic operation, or of a TLSIG, through a window. -/
def State.sendAtomic (s : State) (o : MemOp) (l k : Nat) : State :=
  let d := if o.kind = .tlsig then ((tget 0 o.data l).toNat % 2 ^ 64, 0) else o.operands l
  { s with outbox := s.outbox ++ [.atomic (peerPlace s k).1 (peerPlace s k).2 o.fn o.size d.1 d.2] }

/-- Perform a TLSIG at its home, or at the peer, whose old value is the answer (R158); a backwards `.set` of a user leaves the counter
and faults. -/
def signalCounter (s : State) (o : MemOp) (answer : Nat) : State × Option Nat :=
  let l := lowLane o.lanes
  match tfind o.pa (4 * l) with
  | none => (s, none)
  | some k =>
    let c := (tget 0 o.data l).toNat % 2 ^ 64
    let r := if isWindow k then (s, natToBytes 8 answer) else s.homeRead k 8
    let old := bytesToNat r.2
    let new := if o.fn = 8 then c else (old + c) % 2 ^ 64
    if o.fn = 8 ∧ o.level = .user ∧ asSigned 64 ((new + 2 ^ 64 - old) % 2 ^ 64) < 0 then (r.1, some 0x0C4)
    else if isWindow k then (if o.askFirst then s.sendAtomic o l k else s, none)
    else (r.1.homeWrite k (natToBytes 8 new), none)

/-! ### One lane's access -/

/-- A store's next stage: into the buffer, from there to its home, or out of it as posted writes (R256, R389). -/
def State.storeLane (s : State) (id : Nat) (o : MemOp) (l : Nat) : State :=
  let b := laneBit l
  if !o.team.getLsbD l then
    ({ s with mops := tput s.mops id { o with team := o.team ||| b, stamps := tset 0 o.stamps l s.nextId }, nextId := s.nextId + 1 }).publish
      o l (o.places l)
  else if o.usesWindow l then
    let hits := maskOf fun q => o.leaving.getLsbD q && watchHit s o q
    { s with mops := tput s.mops id { o with watch := o.watch ||| hits } }.postWindow id o
  else
    ((s.bucketsCharge o.ctx (laneTokens s o l)).drainLane o l).putOp id
      { o with die := o.die ||| b, sys := o.sys ||| b, watch := o.watch ||| (if watchHit s o l then b else 0) }

/-- Lanes of a QTAKE acquire from the posts of the entries that they receive, for its active lanes (R259, R264). -/
def State.acquireEntries (s : State) (o : MemOp) (places : List Nat) : State :=
  ((laneList o.lanes).zip places).foldl (fun s e => s.acquireAt o.warp o.act o.scope [(e.2, 8)]) s

/-- The lanes of a post or a take, of j entries, whose writes touch the watched range: of their own entries, or all for TAIL or HEAD
(R366). -/
def ringWatch (s : State) (o : MemOp) (j : Nat) : Lanes :=
  match ringNamed s o with
  | none => 0
  | some q =>
    let hit := fun va n => watched s o va n
    let own := if o.kind = .qpost then maskOf fun l =>
        o.lanes.getLsbD l && hit (q.entryVa (q.tail + laneCount (o.lanes &&& maskOf fun k => decide (k < l)))) 8
      else 0
    if j = 0 then 0
    else if hit ((tget 0 o.addr (lowLane o.lanes)).toNat + (if o.kind = .qpost then 0x18 else 0x10)) 8 then o.lanes else own

/-- A translation fault counts in the sketches (R371). -/
def State.sketchFault (s : State) (o : MemOp) (cause : Nat) : State :=
  if causeClass cause = 3 then s.sketchEvent o.cluster 0x02 o.pc.toNat 1 else s

/-- Perform lane l of operation id at its next stage. -/
def State.performLane (s : State) (id l answer : Nat) : State :=
  match tfind s.mops id with
  | none => s
  | some o =>
    let b := laneBit l
    let stores := o.kind == .store || o.kind == .strel
    let s := if stores && (o.usesWindow l || !o.team.getLsbD l) then s else s.countLane o l
    let charge := fun s : State => s.bucketsCharge o.ctx (laneTokens s o l)
    let take := fun s : State => (s.takeBanks o l).hear o l
    let wd := if watchHit s o l then b else 0
    match o.kind with
    | .load =>
      let r := s.loadLane o l answer
      (charge r.1).putOp id { o.allDone b with vals := tset 0 o.vals l (BitVec.ofNat 128 r.2) }
    | .ldacq =>
      let r := s.loadLane o l answer
      ((charge r.1).acquireAt o.warp o.act o.scope (o.places l)).putOp id
        { o.allDone b with vals := tset 0 o.vals l (BitVec.ofNat 128 r.2) }
    | .store => s.storeLane id o l
    | .strel => s.storeLane id o l
    | .atom =>
      let r := ((charge s).noteRead o (o.accLanes l) (o.places l)).atomicLane o l answer
      (r.1.publish o l (o.places l)).putOp id { o.allDone b with vals := tset 0 o.vals l (BitVec.ofNat 128 r.2), watch := o.watch ||| wd }
    | .red => ((((charge s).noteRead o (o.accLanes l) (o.places l)).atomicLane o l answer).1.publish o l (o.places l)).putOp id { o.allDone b with watch := o.watch ||| wd }
    | .tileLoad =>
      (match o.twin l, o.tile s with
       | some q, _ => (take s).putOp id { o.allDone b with vals := tset 0 o.vals l (tget 0 o.vals q) }
       | none, none => s.putOp id (o.allDone b)
       | none, some h => (take s).putOp id { o.allDone b with
           vals := tset 0 o.vals l (BitVec.ofNat 128 (bytesToNat (h.read (tget 0 o.addr l).toNat o.size))) })
    | .tileStore =>
      (match tfind s.warps o.warp with
       | none => s
       | some w => (((s.takeBanks o l).modHandle w.team o.handle fun h =>
           h.write (tget 0 o.addr l).toNat (natToBytes o.size (tget 0 o.data l).toNat)).publish o l (o.places l)).putOp id (o.allDone b))
    | .tileAtom =>
      (match tfind s.warps o.warp with
       | none => s
       | some w =>
         let old := match findHandle s w.team o.handle with
           | some h => (tileAtomic o l h).2
           | none => 0
         (((take s).modHandle w.team o.handle fun h => (tileAtomic o l h).1).publish o l (o.places l)).putOp id
           { o.allDone b with vals := tset 0 o.vals l (BitVec.ofNat 128 old) })
    | .qpost =>
      let places := entryPlaces s o
      let hits := ringWatch s o (laneCount o.lanes)
      (match postRing (s.noteRead o o.act (o.places l)) o with
       | (s, .ok st) =>
         let s := charge s
         (if st = 0 then s.publish o l (places.map fun k => (k, 8)) else s).putOp id
           { o.allDone o.lanes with vals := tset 0 o.vals (lowLane o.lanes) (BitVec.ofNat 128 st), watch := if st = 0 then hits else 0 }
       | (s, .error c) => (s.sketchFault o c).faultLane id l c)
    | .qtake =>
      let places := entryPlaces s o
      let hits := ringWatch s o places.length
      (match takeRing (s.noteRead o o.act (o.places l ++ places.map fun k => (k, 8))) o with
       | (s, .ok t) => ((charge s).acquireEntries o places).putOp id { o.allDone o.lanes with vals := t, watch := hits }
       | (s, .error c) => (s.sketchFault o c).faultLane id l c)
    | .tlsig =>
      (match signalCounter (s.noteRead o o.act (o.places l)) o answer with
       | (s, none) => ((charge s).publish o l (o.places l)).putOp id { o.allDone o.lanes with watch := o.watch ||| wd }
       | (s, some c) => s.faultLane id l c)
    | _ => s

/-- The reason with which a peer or a window that is down turns a load or an atomic of lane l away: 5, or 7 where the peer refuses
atomics. An answer of 2^128 plus the reason is a refusal (R239, R383, R390). -/
def peerRefuses (s : State) (o : MemOp) (l answer : Nat) : Option Nat :=
  let ks := ((List.range o.pieces).filterMap fun k => tfind o.pa (4 * l + k)).filter isWindow
  if ks.isEmpty || o.kind == .store || o.kind == .strel then none
  else if ks.any fun k => !windowUp s (bitsOf (keyPa k) 46 6) (bitsOf (keyPa k) 0 46) then some 5
  else if answer = 2 ^ 128 + 5 then some 5
  else if answer = 2 ^ 128 + 7 ∧ o.kind.acc = .atomic then some 7
  else none

/-- Where lane l's request to a peer is noted when it has left, and a read before it. -/
def askedLane (l : Nat) : Nat := 2 ^ 60 + l
def probedLane (l : Nat) : Nat := 2 ^ 61 + l

/-- Lane l of an atomic access that is performed whole still has to learn whether its peer would refuse it: a read of its bytes goes before
its request (R165). (log 20, DEDUCED) -/
def probesPeer (o : MemOp) (l : Nat) : Bool :=
  (o.kind == .atom || o.kind == .red) && o.usesWindow l && !o.asked.contains (probedLane l)

def State.probeLane (s : State) (id l : Nat) (o : MemOp) : State :=
  match tfind o.pa (4 * l) with
  | none => s
  | some k => (s.askPeer k o.size).putOp id { o with asked := o.asked ++ [probedLane l] }

/-- Lane l still has to ask a peer (R382, R389): a load for a line that no lane has asked for, another access for itself; a ring's reads
and writes are records. -/
def asksPeer (s : State) (o : MemOp) (l : Nat) : Bool :=
  match o.kind with
  | .load | .ldacq => !roHit s o l && (o.units 7 l).any fun u => isWindow (128 * u) && !o.asked.contains u
  | .atom | .red | .tlsig => o.usesWindow l && !o.asked.contains (askedLane l)
  | _ => false

/-- The requests of lane l leave. -/
def State.askLane (s : State) (id l : Nat) (o : MemOp) : State :=
  match o.kind with
  | .load | .ldacq =>
    let us := (o.units 7 l).filter fun u => isWindow (128 * u) && !o.asked.contains u
    (us.foldl (fun s u => s.askPeer (128 * u) 128) s).putOp id { o with asked := o.asked ++ us }
  | _ =>
    match tfind o.pa (4 * l) with
    | none => s
    | some k => (if o.askFirst then s.askPeer k 8 else s.sendAtomic o l k).putOp id { o with asked := o.asked ++ [askedLane l] }

/-- The structure and place of an uncorrected error in the data that lane l would receive: a bank of its tile, a line of memory or of a
ring's entries that no hit in the read-only L1 spares it (R353). (log 56, DEDUCED) -/
def poisoned (s : State) (o : MemOp) (l : Nat) : Option (Nat × Nat) :=
  if s.bad.isEmpty then none
  else
    match o.kind with
    | .store | .strel | .tileStore => none
    | _ =>
      if o.kind.isTile then
        ((tfind s.warps o.warp).bind fun w => findHandle s w.team o.handle).bind fun h =>
          (badBank s o.cluster h (tget 0 o.addr l).toNat o.size).map fun p => (1, p)
      else (o.units 7 l ++ (entryPlaces s o).map lineOf).findSome? fun u =>
        if o.ro && (s.cluster o.cluster).ro.any fun e => e.1 == u then none else (badLine s u).map fun k => (k, u)

/-- Lane l receives data with an uncorrected error: the structure is to be tested, and the lane faults (R353). -/
def State.poisonLane (s : State) (id l : Nat) (o : MemOp) (e : Nat × Nat) : State :=
  (s.meetError e.1 e.2 o.pc.toNat (((tfind s.warps o.warp).map fun w => w.lnid.toNat).getD 0)).faultLane id l (0x140 + e.1)

/-- Lane l is turned away: by a window that is down or by its peer, or by an uncorrected error in its data. -/
def State.turnedAway (s : State) (id : Nat) (o : MemOp) (l answer : Nat) : Option State :=
  match peerRefuses s o l answer with
  | some r => some ((s.sketchFault o (0x060 + 4 * r)).faultLane id l (0x060 + 4 * r + o.kind.acc.num))
  | none => (poisoned s o l).map (s.poisonLane id l o)

/-- A prefetch brings the line of a named byte into the read-only L1, unless its peer refuses it, or into L2, where a line that is clean has
no state of its own but its directory record. (R148, R390; log 68, DEDUCED) -/
def State.prefetch (s : State) (o : MemOp) (line : Nat) : State :=
  let die := o.cluster / 80
  if !o.ro then s.readLine die line
  else
    let r := if isWindow (128 * line) then s.readPeer (128 * line) 128 else (s, false)
    if r.2 then r.1
    else
      let q := r.1.lineAtHome die line
      q.1.modCluster o.cluster fun c => { c with ro := roPut line q.2 c.ro }

/-- The line that lane l of a PREF requests; none where the lane is dropped: its address may not be read, an engine owns the line, or the
line is there already (R148, R244). -/
def prefetchLine (s : State) (o : MemOp) (l : Nat) : State × Option Nat :=
  match translate s o.cluster o.who .read (tget 0 o.addr l).toNat with
  | (s, .ok k) =>
    let line := lineOf k
    (s, if (dirOf s line).owner.isSome || o.asked.contains line || (o.ro && (s.cluster o.cluster).ro.any fun e => e.1 == line) then none
        else some line)
  | (s, _) => (s, none)

/-- A lane of a PREF is served in its partition's slots (R291); in precise memory mode when every older access is settled (R346). -/
def prefReady (s : State) (id : Nat) (o : MemOp) (l : Nat) : Bool :=
  o.lanes.getLsbD l && slotOpen s o.part && match tfind s.warps o.warp with
    | some w => !w.precise || !s.mops.any fun e => e.1 < id && e.2.warp == o.warp && e.2.kind.isAccess && !e.2.settled
    | none => true

/-- Lane l of a PREF is over, and the operation with its last lane. -/
def State.prefetched (s : State) (id l : Nat) (o : MemOp) : State :=
  let o := { o with lanes := o.lanes &&& ~~~laneBit l }
  if o.lanes = 0 then { s with mops := terase s.mops id } else { s with mops := tput s.mops id o }

/-- Serve lane l of a PREF: its request for a line pays at the port (R250). -/
def State.prefetchLane (s : State) (id l : Nat) (o : MemOp) : State :=
  if !prefReady s id o l then s
  else
    match prefetchLine s o l with
    | (s, none) => s.prefetched id l o
    | (t, some line) =>
      let port := portOf o.cluster (128 * line)
      if bucketPays t o.ctx port 4 then ((t.bucketCharge o.ctx port 4).prefetch o line).prefetched id l { o with asked := o.asked ++ [line] }
      else s

/-- One lane of a home access: a lane that meets an older faulted lane faults with it (R267); a lane that is not ready waits; a lane behind
a window asks the peer, and with its answer goes on. -/
def State.accessLane (s : State) (id l answer : Nat) : State :=
  match tfind s.mops id with
  | none => s
  | some o =>
    if o.kind = .pref then s.prefetchLane id l o
    else if !(o.lanes &&& ~~~o.faulted &&& ~~~o.team).getLsbD l then
      (if (o.lanes &&& ~~~o.faulted).getLsbD l && laneReady s id o l then s.performLane id l answer else s)
    else
      match inheritedCause s id o l with
      | some c => s.faultLane id l c
      | none =>
        if !laneReady s id o l then s
        else if asksPeer s o l then (s.turnedAway id o l 0).getD (s.askLane id l o)
        else (s.turnedAway id o l answer).getD (s.performLane id l answer)

/-- The access is performed in all its lanes at once, so that none of them is where one is turned away: in precise memory mode, unless it
is a store, which enters the buffer without a fault (R165). -/
def wholeAccess (s : State) (o : MemOp) : Bool :=
  o.kind != .store && o.kind != .strel && o.kind != .pref && match tfind s.warps o.warp with
    | some w => w.precise
    | none => false

/-- The lanes that a whole access performs: a ring's or a counter's access is performed once. -/
def MemOp.wholeLanes (o : MemOp) : List Nat :=
  if o.whole then [lowLane o.lanes] else laneList (o.lanes &&& ~~~o.team)

/-- Lanes of a whole access pay one after another, each once the buckets have its tokens (R250). -/
def State.payLanes (s : State) (id : Nat) (tokens : State → MemOp → Nat → List (Nat × Nat)) (ls : List Nat) : State :=
  ls.foldl (fun s l =>
    match tfind s.mops id with
    | none => s
    | some o =>
      let ts := tokens s o l
      if o.paid.getLsbD l || !bucketsPay s o.ctx ts then s
      else { s.bucketsCharge o.ctx ts with mops := tput s.mops id { o with paid := o.paid ||| laneBit l } }) s

/-- Every lane of a whole access has paid. -/
def paidAll (s : State) (id : Nat) (ls : List Nat) : Bool :=
  match tfind s.mops id with
  | some o => ls.all fun l => o.paid.getLsbD l
  | none => false

/-- Each lane of the list for which `what` holds does `act`. -/
def State.eachLane (s : State) (id : Nat) (ls : List Nat) (what : State → MemOp → Nat → Bool) (act : State → Nat → MemOp → State) : State :=
  ls.foldl (fun s l =>
    match tfind s.mops id with
    | some o => if what s o l then act s l o else s
    | none => s) s

/-- A whole access whose lanes are ready and have paid: what it needs of peers is asked for, lane by lane, and with the answers all lanes
are performed, or the first one that is turned away faults and none is performed (R165). -/
def State.wholeNow (s : State) (id : Nat) (o : MemOp) (ls : List Nat) (answer : Nat → Nat) : State :=
  let away := fun answer : Nat → Nat => ls.findSome? fun l => s.turnedAway id o l (answer l)
  if ls.any (probesPeer o) then (away fun _ => 0).getD (s.eachLane id ls (fun _ => probesPeer) fun s l o => s.probeLane id l o)
  else if ls.any (asksPeer s o) then
    (away fun l => if o.asked.contains (probedLane l) then answer l else 0).getD (s.eachLane id ls asksPeer fun s l o => s.askLane id l o)
  else (away answer).getD (ls.foldl (fun s l => s.performLane id l (answer l)) s)

/-- A whole access: every lane is ready, each pays, and then all are performed (R165). -/
def State.accessWhole (s : State) (id : Nat) (answer : Nat → Nat) : State :=
  match tfind s.mops id with
  | none => s
  | some o =>
    let ls := o.wholeLanes
    let below := fun l => o.lanes &&& maskOf fun q => decide (q < l)
    if o.faulted ≠ 0 ∨ o.lanes &&& ~~~o.team = 0 then s
    else
      match ls.findSome? fun l => (inheritedCause s id o l).map fun c => (l, c) with
      | some e => s.faultLane id e.1 e.2
      | none =>
        if !ls.all fun l => laneReadyAt s id { o with team := o.team ||| below l } l [] then s
        else
          let s := s.payLanes id laneTokens ls
          match tfind s.mops id with
          | some o => if paidAll s id ls then s.wholeNow id o ls answer else s
          | none => s

/-- A free answer of a peer: a value, or its refusal, of an atomic access also for its kind (R390; log 13, DESIGN CHOICE). -/
def freeAnswer (atomic : Bool) (base i : Nat) : Nat :=
  let x := fun k => (Config.freeValue (base + 3 * i + k)).toNat
  if x 2 % 4 = 0 then 2 ^ 128 + 5 else if atomic && x 2 % 4 = 1 then 2 ^ 128 + 7 else x 0 + 2 ^ 64 * x 1

/-- The tokens of all the lanes of a list at each port. -/
def wholeTokens (s : State) (o : MemOp) (ls : List Nat) : Table Nat :=
  (ls.foldl (fun (a : Table Nat × Lanes) l =>
    ((laneTokens s { o with paid := a.2 } l).foldl (fun t e => tset 0 t e.1 (tget 0 t e.1 + e.2)) a.1, a.2 ||| laneBit l)) ([], o.paid)).1

/-- An access that is performed with its bundle pays at once; where its tokens are more than a bucket holds, a full bucket. (log 20, DEDUCED) -/
def State.payNow (s : State) (id : Nat) : State :=
  match tfind s.mops id with
  | none => s
  | some o =>
    let ts := (wholeTokens s o o.wholeLanes).map fun e => (e.1, min e.2 (s.context o.ctx).cap)
    if bucketsPay s o.ctx ts then { s.bucketsCharge o.ctx ts with mops := tput s.mops id { o with paid := allLanes } } else s

/-- A whole access as its bundle issues, with free answers of its peer. (log 20, DEDUCED) -/
def State.accessNow (s : State) (id base : Nat) : State :=
  let atomic := ((tfind s.mops id).map fun o => o.kind.acc == .atomic).getD false
  (List.range 3).foldl (fun s i => s.accessWhole id (freeAnswer atomic (base + 192 * i))) (s.payNow id)

/-! ### Gathered reductions (R247 to R249) -/

/-- A RED of lane l may gather on its own die. -/
def gatherable (s : State) (o : MemOp) (l : Nat) : Bool :=
  match tfind o.pa (4 * l) with
  | none => false
  | some k => o.kind == .red && !isWindow k && homeOf k != o.cluster / 80 && (o.scope == 2 || o.scope == 3) &&
      (dirOf s (lineOf k)).owner.isNone

/-- A gathered RED pays at the port of its own die (R250). -/
def gatherTokens (_ : State) (o : MemOp) (l : Nat) : List (Nat × Nat) :=
  if o.paid.getLsbD l then [] else [(o.cluster / 80, ({ o with die := o.die ||| o.paid }.freshUnits 5 l).length)]

/-- Apply lane l to its die's partial: the die drops its S copy (R266); another operation or width first sends the copy
home (R248). -/
def State.gatherOne (s : State) (id l : Nat) : State :=
  match tfind s.mops id with
  | none => s
  | some o =>
    match tfind o.pa (4 * l) with
    | none => s
    | some k =>
      if laneReadyAt s id o l (gatherTokens s o l) && gatherable s o l then
        let d := o.cluster / 80
        let line := lineOf k
        let bits := 8 * o.size
        let wd := if watchHit s o l then laneBit l else 0
        let s := (s.countLane o l).bucketsCharge o.ctx (gatherTokens s o l)
        let e := dirOf s line
        let s := s.setDir line { e with sDies := e.sDies.filter fun x => x ≠ d }
        let near := (s.partialsOf d line).any fun x =>
          rangesMeet (copyPlace x.1) (if x.2.wide then 8 else 4) k o.size &&
            (x.2.fn != o.fn || x.2.wide != o.wide || copyPlace x.1 != k)
        let s := if near then s.evictCopy d line else s
        let p := tget { fn := o.fn, wide := o.wide, value := BitVec.ofNat 64 (atomicIdentity o.fn bits) } s.ucopy (copyKey d k)
        let v := atomicNew o.fn bits p.value.toNat ((tget 0 o.data l).toNat % 2 ^ bits) 0
        let s := { s with ucopy := tput s.ucopy (copyKey d k) { p with value := BitVec.ofNat 64 v } }
        (s.publish o l (o.places l)).putOp id { o.allDone (laneBit l) with watch := o.watch ||| wd }
      else s

/-- A gathered RED that is performed whole (R165): every lane is ready and may gather, each pays, and then all are applied. -/
def State.gatherWhole (s : State) (id : Nat) : State :=
  match tfind s.mops id with
  | none => s
  | some o =>
    let ls := o.wholeLanes
    let below := fun l => o.lanes &&& maskOf fun q => decide (q < l)
    if !ls.all fun l => gatherable s o l && laneReadyAt s id { o with team := o.team ||| below l } l [] then s
    else
      let s := s.payLanes id gatherTokens ls
      if paidAll s id ls then ls.foldl (fun s l => s.gatherOne id l) s else s

/-- GATHERED_RED_APPLY on lane l, or on the whole operation where it is performed whole. -/
def State.gatherLane (s : State) (id l : Nat) : State :=
  if ((tfind s.mops id).map (wholeAccess s)).getD false then s.gatherWhole id else s.gatherOne id l

/-! ### Fences (R146, R147) -/

/-- The lines that RFENCE discards. -/
def State.discardCaches (s : State) (cl m : Nat) : State :=
  s.modCluster cl fun c => { c with recs := if m % 2 = 1 then [] else c.recs, ro := if 2 ≤ m then [] else c.ro }

/-- A FENCE or RFENCE completes; the barriers its warp arrived at are judged again (R263). -/
def State.completeFence (s : State) (id : Nat) : State :=
  match tfind s.mops id with
  | none => s
  | some o =>
    if (o.kind = .fence ∨ o.kind = .rfence) ∧ released s o then
      let s := { s with mops := terase s.mops id }
      let s := if o.kind = .rfence then s.discardCaches o.cluster o.fn else s.fenceOver o
      let s := s.modWarp o.warp fun w => { w with freed := some (s.cluster o.cluster).cycle }
      match tfind s.warps o.warp with
      | some w => s.checkBarriers w.team
      | none => s
    else s

/-! ### Delivery (R139) -/

/-- Register k of a delivered value: narrow loads are extended (R133). -/
def MemOp.word (o : MemOp) (v : BitVec 128) (k : Nat) : Word :=
  if o.size < 4 ∧ o.signed then BitVec.ofInt 32 (asSigned (8 * o.size) v.toNat)
  else v.extractLsb' (32 * k) 32

/-- A cached bundle is named by its context and address. -/
def codeKey (ctx va : Nat) : Nat := ctx * 2 ^ 58 + va

/-- The icache entry at key k lies in the range of an ICINV (R159). -/
def inRange (ctx va n k : Nat) : Bool :=
  n == 0 || (k / 2 ^ 58 == ctx && rangesMeet (k % 2 ^ 56) 32 va n)

/-- The group drops what it has fetched ahead in the range of an ICINV. -/
def Group.dropAhead (q : Group) (ctx va n : Nat) : Group :=
  { q with ahead := q.ahead.filter fun e => !inRange ctx va n (codeKey ctx e.1.toNat) }

/-- Every targeted instruction cache discards the range, with what it is still to take of a miss, and the issuing warp what it has fetched
ahead (R159, R369). (log 25, DEDUCED) -/
def State.invalidateCode (s : State) (o : MemOp) : State :=
  let l := lowLane o.act
  let va := (tget 0 o.addr l).toNat
  let n := (tget 0 o.data l).toNat % 2 ^ 32
  let hit := fun c => if o.scope = 1 then c == o.cluster else if o.scope = 2 then c / 80 == o.cluster / 80 else true
  let drop := fun c : Cluster => { c with icache := c.icache.filter (fun x => !inRange o.ctx va n x.1) }
  let cs := s.clusters.map fun e => if hit e.1 then (e.1, drop e.2) else e
  let clear := fun e : Nat × Warp => (e.1 == o.warp || (e.2.missed && hit (clusterOf e.1))) && (n == 0 || e.2.ctx == o.ctx)
  { s with
    clusters := cs.filter (fun e => decide (e.2 ≠ Cluster.reset)),
    warps := s.warps.map fun e =>
      if clear e then (e.1, { e.2 with r := { e.2.r with groups := e.2.r.groups.map fun q => q.dropAhead e.2.ctx va n } }) else e }

/-- Deliver what an operation has fixed. -/
def State.deliverOp (s : State) (id : Nat) (o : MemOp) : State :=
  if o.words = 0 then s
  else if o.kind = .icinv then
    (if released s o then
      let s := (s.invalidateCode o).modWarp o.warp fun w => w.deliverCode id o.dest 1 0 (fun _ => 0)
      { s with mops := terase s.mops id }
     else s)
  else if 192 ≤ o.dest ∨ o.kind = .qpost then
    (if o.lanes &&& ~~~o.team = 0 ∧ o.lanes &&& ~~~o.dl ≠ 0 then
      let v := tget 0 o.vals (lowLane o.lanes)
      let s := s.modWarp o.warp fun w => w.deliverCode id o.dest o.words 0 (o.word v)
      s.putOp id { o with dl := o.lanes }
     else s)
  else
    let m := o.lanes &&& o.team &&& ~~~o.dl
    if m = 0 then s
    else
      let s := s.modWarp o.warp fun w =>
        (laneList m).foldl (fun w l => w.deliverCode id o.dest o.words l (o.word (tget 0 o.vals l))) w
      s.putOp id { o with dl := o.dl ||| m }

def State.deliverReply (s : State) (id : Nat) (q : Reply) : State :=
  if q.ready then
    let s := s.modWarp q.warp fun w =>
      let m := if q.scalar then laneBit 0 else q.lanes
      (laneList m).foldl (fun w l => w.deliverCode id q.dest q.count l fun k => tget 0 q.vals (64 * k + l)) w
    { s with replies := terase s.replies id }
  else s

/-! ### Tile handles (R152 to R154) -/

/-- Bytes granted for a request (R152). -/
def grantBytes (level1 : Bool) (size : Nat) : Nat :=
  if level1 then (size + 4095) / 4096 * 4096 else (size + 255) / 256 * 256

/-- The pin quota of a partition on a die in units of 4 KiB; the hypervisor's own is the die's L2 (log 11, DEDUCED). -/
def pinQuota (s : State) (part d : Nat) : Nat :=
  if part = Config.hvPartition then 24576 else (s.part part).pinQuota.getD d 0

def spaceFits (s : State) (cl part : Nat) (level1 : Bool) (bytes : Nat) : Bool :=
  if level1 then decide (tget 0 (s.die (cl / 80)).pinned part + bytes / 4096 ≤ pinQuota s part (cl / 80))
  else decide ((s.cluster cl).spaceUsed + bytes ≤ 2 ^ 20)

/-- Space taken or returned, in bytes. -/
def State.takeSpace (s : State) (cl part : Nat) (level1 : Bool) (bytes : Nat) : State :=
  if level1 then s.modDie (cl / 80) fun d => { d with pinned := tset 0 d.pinned part (tget 0 d.pinned part + bytes / 4096) }
  else s.modCluster cl fun c => { c with spaceUsed := c.spaceUsed + bytes }
def State.returnSpace (s : State) (cl part : Nat) (level1 : Bool) (bytes : Nat) : State :=
  if level1 then s.modDie (cl / 80) fun d => { d with pinned := tset 0 d.pinned part (tget 0 d.pinned part - bytes / 4096) }
  else s.modCluster cl fun c => { c with spaceUsed := c.spaceUsed - bytes }

/-- The request is invalid (R152). -/
def hallocBad (h handles rows rb : Nat) (level1 : Bool) : Bool :=
  decide (64 ≤ h) || decide (handles ≤ h) || decide (rows = 0) || decide (65536 < rows) || rb % 4 != 0 ||
  decide (rb < 4) || decide (65536 < rb) || decide ((if level1 then 2 ^ 26 else 2 ^ 20) < rows * rb)

/-- HALLOC taken by the team's handle table: state and status, for the reply `id` with whose delivery the zero fill ends. Of several
reasons to refuse, 3 comes before 2 and 2 before 1. (log 77, DESIGN CHOICE) -/
def State.halloc (s : State) (w : Warp) (cl h rows rb : Nat) (level1 : Bool) (id : Nat) : State × Nat :=
  match tfind s.teams w.team with
  | none => (s, 3)
  | some t =>
    if hallocBad h t.handles rows rb level1 then (s, 3)
    else if (tfind t.htab h).isSome then (s, 2)
    else
      let g := grantBytes level1 (rows * rb)
      if spaceFits s cl w.part level1 g then
        let q : Handle := { rows := rows, rowBytes := rb, level1 := level1, grant := g, gen := s.nextId, bytes := [], deck := [],
                            since := (s.cluster cl).cycle + 1, fill := id }
        let s := { s with teams := tput s.teams w.team { t with htab := tput t.htab h q }, nextId := s.nextId + 1 }
        (s.takeSpace cl w.part level1 g, 0)
      else (s, 1)

/-- Accesses and engine operations still use an allocation (R153). -/
def handleBusy (s : State) (gen : Nat) : Bool :=
  (s.pushes.any fun e => e.2.handle == gen) || (s.replies.any fun e => match e.2.req with
    | some (.depth h _) => h == gen
    | _ => false) ||
  (s.mops.any fun e => e.2.kind.isTile && e.2.handle == gen && decide (e.2.lanes &&& ~~~e.2.team ≠ 0)) ||
  (s.copies.any fun e => e.2.handle == gen) || (s.walks.any fun e => e.2.handle == gen) ||
    s.cuts.any fun e => e.2.handle == gen && e.2.todo != 0

/-- Handle h leaves the table; its space stays taken until nothing uses it. -/
def State.freeHandle (s : State) (tid cl part h : Nat) (reply : Option Nat) : State :=
  match tfind s.teams tid with
  | none => s
  | some t =>
    match tfind t.htab h with
    | none => s
    | some q =>
      let old : OldHandle := { number := h, gone := (s.cluster cl).cycle + 1, team := tid, cluster := cl, part := part, h := q, reply := reply }
      { s with teams := tput s.teams tid { t with htab := terase t.htab h }, oldHandles := tput s.oldHandles q.gen old }

/-- HANDLE_SPACE_RETURN (R153). -/
def State.returnHandle (s : State) (gen : Nat) : State :=
  match tfind s.oldHandles gen with
  | none => s
  | some o =>
    if handleBusy s gen || decide ((s.cluster o.cluster).cycle < o.gone) then s
    else
      let s := { s with oldHandles := terase s.oldHandles gen }
      let s := s.returnSpace o.cluster o.part o.h.level1 o.h.grant
      match o.reply with
      | none => s
      | some id => { s with replies := s.replies.map fun e => if e.1 = id then (e.1, { e.2 with ready := true }) else e }

/-- HQRY's word (R154). -/
def handleWord (h : Handle) : Nat :=
  (h.rows - 1) + 2 ^ 16 * (h.rowBytes / 4 - 1) + (if h.level1 then 2 ^ 30 else 0) + 2 ^ 31 + 2 ^ 32 * (h.grant / 256)


/-! ### Handle requests, and delivery -/

/-- Lane l's deck in an allocation is not as operation id must find it: the zero fill is not over (R254), or an earlier cut or push is still
to act (R170, R189, R321). -/
def deckWaits (s : State) (team gen id l : Nat) : Bool :=
  !handleFilled s team gen || s.cuts.any (fun e => e.1 < id && e.2.handle == gen && e.2.todo.getLsbD l) ||
    s.pushes.any fun e => e.1 < id && e.2.handle == gen && (tfind e.2.entries l).isSome

/-- Entries of lane l's deck that wait for a spill (R302). -/
def pendingEntries (s : State) (gen l : Nat) : Nat :=
  s.walks.foldl (fun n e => if e.2.handle = gen then n + ((tfind e.2.pend l).getD []).length else n) 0

/-- The number of entries on lane l's deck (R192). -/
def deckCount (s : State) (team gen l : Nat) : Nat :=
  match findHandle s team gen with
  | some h => (tget { low := 0, top := 0, spill := 0 } h.deck l).top + pendingEntries s gen l
  | none => 0

/-- The counts of a DDEPTH, by lane. -/
def deckCounts (s : State) (team gen : Nat) (m : Lanes) : Table Word := laneTable 0 m fun l => BitVec.ofNat 32 (deckCount s team gen l)

/-- Perform a handle request of a warp with reply id: its status or words, and whether they are ready (R152 to R154). -/
def State.handleNow (s : State) (w : Warp) (cl id : Nat) : HandleReq → State × List Nat × Bool
  | .halloc h rows rb level1 =>
    let q := s.halloc w cl h rows rb level1 id
    (q.1, [q.2], true)
  | .hfree h =>
    if 64 ≤ h then (s, [3], true)
    else
      match tableHandle s w h with
      | none => (s, [1], true)
      | some _ => (s.freeHandle w.team cl w.part h (some id), [0], false)
  | .hqry h =>
    let v := if 64 ≤ h then 0 else match tableHandle s w h with
      | some q => handleWord q
      | none => 0
    (s, [v % 2 ^ 32, v / 2 ^ 32], true)
  | .depth _ _ => (s, [], true)
  | .group _ _ => (s, [], true)

/-- A handle request that has waited is performed when no checkpoint older than it stands (R346), a count when the decks of its lanes are as
it must find them. -/
def State.requestDue (s : State) (id : Nat) (q : Reply) (r : HandleReq) : State :=
  match tfind s.warps q.warp, r with
  | none, _ => s
  | some w, .depth gen m =>
    if (laneList m).any (deckWaits s w.team gen id) then s
    else { s with replies := tput s.replies id { q with vals := deckCounts s w.team gen m, ready := true, req := none } }
  | some _, .group _ _ => s
  | some w, r =>
    if w.checkpoint.any fun c => decide (c.seq < q.seq) then s
    else
      let x := s.handleNow w (clusterOf q.warp) id r
      { x.1 with replies := tput x.1.replies id { q with vals := scalarVals x.2.1, ready := x.2.2, req := none } }

/-- RESULT_DELIVERY (R139, R169). -/
def State.deliver (s : State) (id : Nat) : State :=
  match tfind s.mops id with
  | some o => s.deliverOp id o
  | none =>
    match tfind s.replies id with
    | some q => (match q.req with
      | some r => s.requestDue id q r
      | none => s.deliverReply id q)
    | none => s

end Sys2Proof.Machine
end

