-- ==== Sys2Proof/Machine/Flags.lean ====
section
/-! DEFINITION. Conditions and votes that write predicates (R109, R126, R127) and the checks on completion flags (R31,
R213). The floating conditions are fpCond (R114). -/

namespace Sys2Proof.Machine

/-- sx(v) of R104: sign- or zero-extension. -/
def sxInt (un : Bool) (v : Word) : Int := if un then v.toNat else v.toInt

/-- Integer conditions (R109). -/
def intCond (c : Nat) (un : Bool) (a b : Word) : Bool :=
  match c with
  | 0 => a == b
  | 1 => a != b
  | 2 => decide (sxInt un a < sxInt un b)
  | 3 => decide (sxInt un a ≤ sxInt un b)
  | 4 => decide (sxInt un b < sxInt un a)
  | _ => decide (sxInt un b ≤ sxInt un a)

/-- VOTE on c of n active lanes with threshold t (R126). -/
def voteCond (m t c n : Nat) : Bool :=
  match m with
  | 0 => decide (t ≤ c)
  | 1 => decide (c < t)
  | 2 => c == n
  | 3 => c == 0
  | 4 => decide (n < 2 * c)
  | 5 => c == 0 || c == n
  | _ => c % 2 == 1

/-- Table lookup of VPLOG (R127). -/
def plogBit (e : BitVec 8) (a b c : Bool) : Bool :=
  e.getLsbD ((if a then 4 else 0) + (if b then 2 else 0) + (if c then 1 else 0))

/-- A named flag could never leave clear: it is clear and unbound (R213). -/
def flagIdle (f : Flag) : Bool := f.state == 0 && !f.bound

/-- The 16-bit word of a flag (R30). -/
def flagWord (f : Flag) : Nat := f.state.toNat + (if f.bound then 4 else 0) + 256 * f.outcome.toNat

end Sys2Proof.Machine
end

