-- ==== Sys2Proof/Machine/Special.lean ====
section
/-! DEFINITION. The special functions (R119, R120): exact and correctly rounded results, and for the faithful functions
the two bracketing FP32 values, between which a constant of Config chooses (log 12, UNVERIFIED). A magnitude is computed as a
truncated multiple of a power of two with a sticky bit below it. -/

namespace Sys2Proof.Machine

/-- Integer square root of n, by bits from bit i-1 down, from r. -/
def isqrtFrom (n : Nat) : Nat → Nat → Nat
  | 0, r => r
  | i + 1, r => isqrtFrom n i (let t := r + 2 ^ i; if t * t ≤ n then t else r)

/-- floor(√n) for n below 2^(2·bits). -/
def isqrt (bits n : Nat) : Nat := isqrtFrom n bits 0

/-- A truncated magnitude: value in [m, m+1)·2^e, exactly m·2^e when not sticky. (log 12, UNVERIFIED) -/
structure Trunc where
  m : Nat
  e : Int
  sticky : Bool

/-- The magnitude as an exact dyadic that rounds alike: the sticky bit becomes the last bit. -/
def Trunc.dyadic (t : Trunc) : Nat × Int := if t.sticky then (2 * t.m + 1, t.e - 1) else (t.m, t.e)

/-- A correctly rounded FP32 result. -/
def Trunc.correct (t : Trunc) (neg : Bool) (mode : RMode) (ovt : Nat) : Nat :=
  fp32.round mode ovt (.fin neg t.dyadic.1 t.dyadic.2)

/-- A faithful FP32 result: the exact one, or the bracketing value that the constant chooses; an overflow follows the
OFP32 entry (R119). (log 12, UNVERIFIED) -/
def Trunc.faithful (t : Trunc) (neg outer : Bool) (mode : RMode) (ovt : Nat) : Nat :=
  let d := t.dyadic
  let b := fp32.roundBits (if outer then .ru else .rz) false d.1 d.2
  if d.1 = 0 then fp32.signBit neg
  else if fp32.infBits ≤ b then fp32.overflow mode ovt neg
  else fp32.signBit neg + b

/-- floor(π·2^192). -/
def piBits : Nat := 0x3243F6A8885A308D313198A2E03707344A4093822299F31D0
/-- floor(ln 2·2^192). -/
def ln2Bits : Nat := 0xB17217F7D1CF79ABC9E3B39803F2F6AF40F343267298B62D

/-- Σ y^k/k! in steps of 2^-p, every division rounded down: term k down to fuel 0. -/
def expSeries (p y : Nat) : Nat → Nat → Nat → Nat
  | 0, _, _ => 0
  | fuel + 1, k, term => term + expSeries p y fuel (k + 1) (term * y / 2 ^ p / (k + 1))

/-- e^(y/2^p) in steps of 2^-p for 0 ≤ y < 2^p. -/
def expFixed (p y : Nat) : Nat := expSeries p y 60 0 (2 ^ p)

/-- 2^(f/2^p) in steps of 2^-p for 0 ≤ f < 2^p, p ≤ 192. -/
def exp2Fixed (p f : Nat) : Nat := expFixed p (f * ln2Bits / 2 ^ 192)

/-- Alternating series of sine (k = 1) or cosine (k = 0) of z, with z² given in steps of 2^-p. -/
def altSeries (p z2 : Nat) : Nat → Nat → Nat → Int
  | 0, _, _ => 0
  | fuel + 1, k, term =>
    (term : Int) - altSeries p z2 fuel (k + 2) (term * z2 / 2 ^ p / ((k + 1) * (k + 2)))

/-- log2 of y/2^p for 2^p ≤ y < 2^(p+1): its first n fraction bits, by repeated squaring. -/
def log2Bits (p : Nat) : Nat → Nat → Nat → Nat
  | 0, _, acc => acc
  | n + 1, y, acc =>
    let q := y * y / 2 ^ p
    if 2 ^ (p + 1) ≤ q then log2Bits p n (q / 2) (2 * acc + 1) else log2Bits p n q (2 * acc)

/-- 1/x. -/
def rcpTrunc (m : Nat) (e : Int) : Trunc :=
  { m := 2 ^ 80 / m, e := -80 - e, sticky := 2 ^ 80 % m != 0 }

/-- √x. -/
def sqrtTrunc (m : Nat) (e : Int) : Trunc :=
  let odd := e % 2 != 0
  let n := (if odd then 2 * m else m) * 2 ^ 80
  let r := isqrt 64 n
  { m := r, e := (if odd then e - 1 else e) / 2 - 40, sticky := r * r != n }

/-- 1/√x. -/
def rsqTrunc (m : Nat) (e : Int) : Trunc :=
  let odd := e % 2 != 0
  let d := if odd then 2 * m else m
  let r := isqrt 64 (2 ^ 120 / d)
  { m := r, e := -60 - (if odd then e - 1 else e) / 2, sticky := r * r * d != 2 ^ 120 }

/-- 2^x for finite x, |x| < 2^9. -/
def exp2Trunc (neg : Bool) (m : Nat) (e : Int) : Trunc :=
  -- x in steps of 2^-160
  let a := m * 2 ^ (e + 160).toNat
  let i : Int := if neg then -((a + 2 ^ 160 - 1) / 2 ^ 160 : Nat) else (a / 2 ^ 160 : Nat)
  let f := if neg then (2 ^ 160 - a % 2 ^ 160) % 2 ^ 160 else a % 2 ^ 160
  if f = 0 then { m := 1, e := i, sticky := false }
  else { m := exp2Fixed 160 f, e := i - 160, sticky := true }

/-- log2 x for x = m·2^e, m ≠ 0: its sign and magnitude. -/
def log2Trunc (m : Nat) (e : Int) : Bool × Trunc :=
  let l := Nat.log2 m
  let i := e + (l : Int)
  if m = 2 ^ l then (decide (i < 0), { m := i.natAbs, e := 0, sticky := false })
  else
    let f := log2Bits 300 130 (m * 2 ^ (300 - l)) 0
    if 0 ≤ i then (false, { m := i.natAbs * 2 ^ 130 + f, e := -130, sticky := true })
    else (true, { m := i.natAbs * 2 ^ 130 - f - 1, e := -130, sticky := true })

/-- sin(πr) for r = m·2^e, 0 < r ≤ 1/4. -/
def sinPiTrunc (m : Nat) (e : Int) : Trunc :=
  let z := roundAt .rz false (m * piBits) (e - 192) (-160)
  let s := altSeries 160 (z * z / 2 ^ 160) 20 1 (2 ^ 160)
  { m := m * piBits * s.toNat, e := e - 352, sticky := true }

/-- cos(πr) for r = m·2^e, 0 < r ≤ 1/4. -/
def cosPiTrunc (m : Nat) (e : Int) : Trunc :=
  let z := roundAt .rz false (m * piBits) (e - 192) (-160)
  let c := (altSeries 160 (z * z / 2 ^ 160) 20 0 (2 ^ 160)).toNat
  { m := min c (2 ^ 160 - 1), e := -160, sticky := true }

/-- sin(πx) or cos(πx) of finite x: sign and magnitude. A zero takes its sign by R120. -/
def sinCosTrunc (cosine neg : Bool) (m : Nat) (e : Int) : Bool × Trunc :=
  -- |x| in steps of 2^-152, modulo 2
  let two := 2 ^ 153
  let n := m * 2 ^ (e + 152).toNat % two
  let half := 2 ^ 151
  let j := (n + half / 2) / half
  let r : Int := (n : Int) - (j * half : Nat)
  -- |x| = j/2 + r; sin turns by j quarters, cos by j + 1
  let q := (if cosine then j + 1 else j) % 4
  let flip := neg && !cosine
  if r = 0 then
    (match q with
     | 1 => (flip, { m := 1, e := 0, sticky := false })
     | 3 => (!flip, { m := 1, e := 0, sticky := false })
     | _ => (flip, { m := 0, e := 0, sticky := false }))
  else
    match q with
    | 0 => (flip != decide (r < 0), sinPiTrunc r.natAbs (-152))
    | 1 => (flip, cosPiTrunc r.natAbs (-152))
    | 2 => (flip != decide (0 < r), sinPiTrunc r.natAbs (-152))
    | _ => (!flip, cosPiTrunc r.natAbs (-152))

/-- tanh |x| for x = m·2^e, m ≠ 0. Below 2^-12 it lies just below |x|, from 16 on just below 1. -/
def tanhTrunc (m : Nat) (e : Int) : Trunc :=
  let top := e + (Nat.log2 m : Int)
  if top < -12 then { m := m * 2 ^ 60 - 1, e := e - 60, sticky := true }
  else if 4 ≤ top then { m := 2 ^ 60 - 1, e := -60, sticky := true }
  else
    -- 2|x| < 32 in steps of 2^-200: the exponential of a 32nd part, squared five times
    let y := roundAt .rz false m (e + 1) (-200) / 32
    let g := expFixed 200 y
    let sq := fun a : Nat => a * a / 2 ^ 200
    let big := sq (sq (sq (sq (sq g))))
    { m := (big - 2 ^ 200) * 2 ^ 160 / (big + 2 ^ 200), e := -160, sticky := true }

/-- A special function on the bits of an FP32 source; `op` is its opcode 0x48 to 0x4E, `alt` the cosine form. -/
def specialFn (op : Nat) (alt : Bool) (mode : RMode) (ovt : Nat) (bits : Nat) : Nat :=
  let outer := Config.faithfulOuter (op + (if alt then 128 else 0)) (BitVec.ofNat 32 bits)
  let one := 0x3F800000
  let nan := fp32.nanBits
  let inf := fp32.infBits
  let sg := fp32.signBit
  match op, fp32.value bits with
  | _, .nan => nan
  | 0x48, .inf s => sg s
  | 0x48, .fin s m e => if m = 0 then sg s + inf else (rcpTrunc m e).correct s mode ovt
  | 0x49, .inf s => if s then nan else 0
  | 0x49, .fin s m e =>
    if m = 0 then sg s + inf else if s then nan else (rsqTrunc m e).faithful false outer mode ovt
  | 0x4A, .inf s => if s then nan else inf
  | 0x4A, .fin s m e => if m = 0 then sg s else if s then nan else (sqrtTrunc m e).correct false mode ovt
  | 0x4B, .inf s => if s then 0 else inf
  | 0x4B, .fin s m e =>
    if m = 0 then one
    else if 9 ≤ e + (Nat.log2 m : Int) then
      (if s then (Trunc.mk 1 (-400) true).faithful false outer mode ovt else fp32.overflow mode ovt false)
    else (exp2Trunc s m e).faithful false outer mode ovt
  | 0x4C, .inf s => if s then nan else inf
  | 0x4C, .fin s m e =>
    if m = 0 then sg true + inf
    else if s then nan
    else
      let r := log2Trunc m e
      if r.2.m = 0 && !r.2.sticky then 0 else r.2.faithful r.1 outer mode ovt
  | 0x4D, .inf _ => nan
  | 0x4D, .fin s m e =>
    if m = 0 then (if alt then one else sg s)
    else
      let r := sinCosTrunc alt s m e
      if r.2.m = 0 && !r.2.sticky then sg (!alt && s) else r.2.faithful r.1 outer mode ovt
  | _, .inf s => sg s + one
  | _, .fin s m e => if m = 0 then sg s else (tanhTrunc m e).faithful s outer mode ovt

end Sys2Proof.Machine
end

