-- ==== Sys2Proof/Machine/VecOps.lean ====
section
/-! DEFINITION. The vector slot's shared operations: lane functions (R104 to R118), lane operations (R121 to R128) and
how a result is put in flight (R98 to R100). -/

namespace Sys2Proof.Machine

/-! ### Integer lane functions (R104 to R107, R110) -/

def wordOfInt (i : Int) : Word := BitVec.ofInt 32 i

def mulhLane (un : Bool) (a b : Word) : Word :=
  ((BitVec.ofInt 64 (sxInt un a * sxInt un b)).extractLsb' 32 32)
def mulwLane (un : Bool) (a b : Word) : DWord := BitVec.ofInt 64 (sxInt un a * sxInt un b)
def minLane (un : Bool) (a b : Word) : Word := if sxInt un a ≤ sxInt un b then a else b
def maxLane (un : Bool) (a b : Word) : Word := if sxInt un b ≤ sxInt un a then a else b
def absdLane (un : Bool) (a b : Word) : Word := BitVec.ofNat 32 (sxInt un a - sxInt un b).natAbs
def clampLane (un : Bool) (a b c : Word) : Word :=
  let t := maxLane un a b
  if sxInt un t ≤ sxInt un c then t else c
def shlLane (a b : Word) : Word := if 32 ≤ b.toNat then 0 else a <<< b.toNat
def shrLane (un : Bool) (a b : Word) : Word := wordOfInt (sxInt un a / 2 ^ (min b.toNat 32))
/-- Sum with carry: 33 bits (R104). -/
def addcLane (a b : Word) (c : Bool) : Nat := a.toNat + b.toNat + (if c then 1 else 0)
def fieldPos (d : Word) : Nat := d.toNat % 32
def fieldWidth (d : Word) : Nat := min (bitsOf d.toNat 8 6) 32
def bfeLane (un : Bool) (a b : Word) : Word :=
  let w := fieldWidth b
  let f := (sxInt un a / 2 ^ fieldPos b) % 2 ^ w
  if w = 0 then 0
  else if un then wordOfInt f
  else if 2 ^ (w - 1) ≤ f then wordOfInt (f - 2 ^ w) else wordOfInt f
def bfiLane (a b c : Word) : Word :=
  let mask : Word := BitVec.ofNat 32 ((2 ^ fieldWidth c - 1) * 2 ^ fieldPos c)
  (a &&& ~~~mask) ||| (BitVec.ofNat 32 (b.toNat * 2 ^ fieldPos c) &&& mask)
def popcLane (a : Word) : Word := BitVec.ofNat 32 ((List.range 32).filter fun i => a.getLsbD i).length
/-- Leading zeros: the zeros above the highest 1 bit (R105). -/
def clzLane (a : Word) : Word := BitVec.ofNat 32 (if a = 0 then 32 else 31 - Nat.log2 a.toNat)
def brevLane (a : Word) : Word :=
  BitVec.ofNat 32 ((List.range 32).foldl (fun n i => if a.getLsbD (31 - i) then n + 2 ^ i else n) 0)
/-- Destination byte i of VPERM (R107). -/
def permByte (a b c : Word) (i : Nat) : Byte :=
  let sel := bitsOf b.toNat (3 * i) 3
  let v : Byte := if sel < 4 then a.extractLsb' (8 * sel) 8 else c.extractLsb' (8 * (sel - 4)) 8
  let v := if b.getLsbD (12 + i) then ~~~v else v
  if b.getLsbD (16 + i) then 0 else v
def permLane (a b c : Word) : Word := permByte a b c 3 ++ permByte a b c 2 ++ permByte a b c 1 ++ permByte a b c 0
/-- VREQ (R110). -/
def reqLane (int4 : Bool) (n : Nat) (a b c : Word) : Word :=
  let t := (a.toInt * b.toInt + 2 ^ 30) / 2 ^ 31
  let q := if n = 0 then t else (t + 2 ^ (n - 1)) / 2 ^ n
  wordOfInt (satInt (if int4 then 6 else 5) (q + c.toInt))

/-! ### Floating lane functions (R111, R115, R116) -/

/-- The floating environment read at issue: RMODE and OVT. -/
structure FpEnv where
  mode : RMode
  ovt : DWord
  fmt : DWord

def ovtOf (s : State) (ctx : Nat) : DWord := sregGet s (sregKey 0x122 ctx) 0x4015
def fpEnv (s : State) (w : Warp) : FpEnv :=
  { mode := RMode.ofNat4 (bitsOf w.r.fmt.toNat 12 2), ovt := ovtOf s w.ctx, fmt := w.r.fmt }

/-- Format code whose OVT entry a format uses (R81). -/
def fpCode (f : FpFmt) : Nat := if f = fp64 then 7 else if f = fp16 then 1 else if f = bf16 then 2 else 0

def fpAdd (v : FpEnv) (f : FpFmt) (a b : Nat) : Nat :=
  f.round v.mode (ovtEntry v.ovt (fpCode f)) ((f.value a).add v.mode (f.value b))
def fpSub (v : FpEnv) (f : FpFmt) (a b : Nat) : Nat :=
  f.round v.mode (ovtEntry v.ovt (fpCode f)) ((f.value a).add v.mode (f.value b).neg)
def fpMul (v : FpEnv) (f : FpFmt) (a b : Nat) : Nat :=
  f.round v.mode (ovtEntry v.ovt (fpCode f)) ((f.value a).mul (f.value b))
def fpFma (v : FpEnv) (f : FpFmt) (a b c : Nat) : Nat :=
  f.round v.mode (ovtEntry v.ovt (fpCode f)) (((f.value a).mul (f.value b)).add v.mode (f.value c))

/-- A function on the two 16-bit halves of words (R116). -/
def halves2 (f : Nat → Nat → Nat) (a b : Word) : Word :=
  BitVec.ofNat 32 (f (a.toNat % 2 ^ 16) (b.toNat % 2 ^ 16) + 2 ^ 16 * f (a.toNat / 2 ^ 16) (b.toNat / 2 ^ 16))
def halves3 (f : Nat → Nat → Nat → Nat) (a b c : Word) : Word :=
  BitVec.ofNat 32 (f (a.toNat % 2 ^ 16) (b.toNat % 2 ^ 16) (c.toNat % 2 ^ 16) +
    2 ^ 16 * f (a.toNat / 2 ^ 16) (b.toNat / 2 ^ 16) (c.toNat / 2 ^ 16))

/-- Modes of VFRND (R112). -/
def frndMode (v : FpEnv) (m : Nat) : RMode :=
  match m with
  | 0 => v.mode
  | 1 => .rne
  | 2 => .rz
  | 3 => .ru
  | 4 => .rd
  | _ => .rna

/-- Element width of VPACK and VUNPK (R118). -/
def packWidth (m : Nat) : Nat := 16 / 2 ^ (m / 2)
def packLane (w i : Nat) (a b : Word) : Word :=
  let mask : Word := BitVec.ofNat 32 ((2 ^ w - 1) * 2 ^ (w * i))
  (b &&& ~~~mask) ||| (BitVec.ofNat 32 (a.toNat % 2 ^ w * 2 ^ (w * i)))
def unpackLane (un : Bool) (w i : Nat) (a : Word) : Word :=
  let f := bitsOf a.toNat (w * i) w
  if un then BitVec.ofNat 32 f else wordOfInt (asSigned w f)

/-! ### Lane operations (R121 to R126) -/

/-- Source lane of VSHFL (R121). -/
def shflLane (mode : Nat) (b : Word) (l : Nat) : Nat :=
  let k := b.toNat % 64
  match mode with
  | 0 => k
  | 1 => (l + k) % 64
  | 2 => l ^^^ k
  | _ =>
    let w := 2 ^ (min (b.toNat % 8) 6)
    l / w * w + (w - 1 - l % w)

/-- The combination of R122 on 32-bit or, with type 3, 64-bit values. -/
def redOp (v : FpEnv) (op ty a b : Nat) : Nat :=
  let f := if ty = 3 then fp64 else fp32
  let un := ty == 1
  match op with
  | 0 => if ty < 2 then (a + b) % 2 ^ 32 else fpAdd v f a b
  | 1 => if ty < 2 then (minLane un (BitVec.ofNat 32 a) (BitVec.ofNat 32 b)).toNat else f.minmax false a b
  | 2 => if ty < 2 then (maxLane un (BitVec.ofNat 32 a) (BitVec.ofNat 32 b)).toNat else f.minmax true a b
  | 3 => a &&& b
  | 4 => a ||| b
  | _ => a ^^^ b

/-- An operand of a reduction or a scan: of a minimum or maximum a NaN is canonical, for no payload reaches a result (R70); a sum passes a
lone operand on unchanged (R91, R92). -/
def redOperand (op ty a : Nat) : Nat :=
  let f := if ty = 3 then fp64 else fp32
  if (op = 1 ∨ op = 2) ∧ 2 ≤ ty ∧ (f.value a).isNan then f.nanBits else a

/-- The identity of R122. -/
def redIdentity (op ty : Nat) : Nat :=
  match op with
  | 1 => if ty = 0 then 0x7FFFFFFF else if ty = 1 then 0xFFFFFFFF else if ty = 2 then fp32.infBits else fp64.infBits
  | 2 => if ty = 0 then 0x80000000 else if ty = 1 then 0
         else if ty = 2 then 2 ^ 31 + fp32.infBits else 2 ^ 63 + fp64.infBits
  | 3 => 0xFFFFFFFF
  | _ => 0

def pairUp (f : Nat → Nat → Nat) : Option Nat → Option Nat → Option Nat
  | some a, some b => some (f a b)
  | some a, none => some a
  | none, b => b

/-- One level of the tree of R91: adjacent pairs. -/
def treeLevel (f : Nat → Nat → Nat) : List (Option Nat) → List (Option Nat)
  | a :: b :: t => pairUp f a b :: treeLevel f t
  | t => t

/-- The reduction over the active lanes by the tree of R91; none when no lane is active. The value of the only active lane passes on
unchanged. -/
def treeReduce (f : Nat → Nat → Nat) (act : Lanes) (a : Nat → Nat) : Option Nat :=
  let l0 := (List.range 64).map fun l => if act.getLsbD l then some (a l) else none
  ((treeLevel f (treeLevel f (treeLevel f (treeLevel f (treeLevel f (treeLevel f l0)))))).headD none)

/-- One step of the scan of R92: lane l ≥ n takes x(l - n) op x(l). -/
def scanStep (f : Nat → Nat → Nat) (xs : List (Option Nat)) (n : Nat) : List (Option Nat) :=
  xs.zipIdx.map fun e => if n ≤ e.2 then pairUp f (xs.getD (e.2 - n) none) e.1 else e.1

/-- The inclusive scan of R92. -/
def scanAll (f : Nat → Nat → Nat) (act : Lanes) (a : Nat → Nat) : List (Option Nat) :=
  let l0 := (List.range 64).map fun l => if act.getLsbD l then some (a l) else none
  [1, 2, 4, 8, 16, 32].foldl (scanStep f) l0

/-- The nearest lower active lane. -/
def lowerLane (act : Lanes) (l : Nat) : Option Nat := ((laneList act).filter fun k => k < l).getLast?

/-- What VSCAN gives lane l (R123). -/
def scanLane (op ty : Nat) (ex : Bool) (act : Lanes) (inc : List (Option Nat)) (l : Nat) : Nat :=
  if ex then
    match lowerLane act l with
    | none => redIdentity op ty
    | some k => (inc.getD k none).getD 0
  else (inc.getD l none).getD 0

/-! ### Results in flight -/

/-- The destination register k of an operand code. -/
def destOf (c k : Nat) : Dest :=
  if c < 192 then .v (c + k) else if c < 240 then .s (c - 192 + k) else .none

/-- Add a result to the current warp's results in flight, under a fresh identity. -/
def State.launchCur (s : State) (f : Nat → Warp → Regs) : State :=
  let q := s.nextId
  let s := s.modWarp s.cur (fun w => { w with r := f q w })
  { s with nextId := q + 1 }

def lowTable (lanes : Lanes) (val : Nat → DWord) : Table Word := laneTable 0 lanes (fun l => lowWord (val l))
def highTable (lanes : Lanes) (val : Nat → DWord) : Table Word := laneTable 0 lanes (fun l => highWord (val l))

/-- Put a vector result in flight (R17, R18, R98, R100): class, operand code, one register or a pair, the lanes of the
register, the lanes of the latch, the values. A result to `%zero` still enters the latch of its class (log 74, DEDUCED). -/
def State.pushVec (s : State) (c cls : Nat) (wide : Bool) (lanes latchLanes : Lanes) (val : Nat → DWord) : State :=
  let t := s.issue.t
  let lam := Config.nativeLatency cls
  let latch := laneTable 0 latchLanes (fun l => if cls = 2 then val l else (lowWord (val l)).zeroExtend 64)
  s.launchCur (fun q w =>
    let decl := w.declared cls
    let r := w.r.launchResult (destOf c 0) cls t lam decl lanes (lowTable lanes val) (some latch) latchLanes false q
    if wide then r.launchResult (destOf c 1) cls t lam decl lanes (highTable lanes val) none 0 true q else r)

/-- Put a predicate result in flight (R95): it enters no latch. -/
def State.pushPred (s : State) (n cls : Nat) (lanes vals : Lanes) : State :=
  let t := s.issue.t
  s.launchCur (fun q w =>
    w.r.launchResult (.p n) cls t (Config.nativeLatency cls) (w.declared cls) lanes
      (laneTable 0 lanes (fun l => if vals.getLsbD l then 1 else 0)) none 0 false q)

/-- A control-slot result of one or two registers, latency 3 (R200). -/
def State.pushCtl (s : State) (c words : Nat) (lanes : Lanes) (val : Nat → DWord) : State :=
  let t := s.issue.t
  s.launchCur (fun q w =>
    let r := w.r.launchResult (destOf c 0) 4 t 3 3 lanes (lowTable lanes val) none 0 false q
    if words = 2 then r.launchResult (destOf c 1) 4 t 3 3 lanes (highTable lanes val) none 0 true q else r)

/-- The scalar form of a vector instruction (R48). -/
def isScalarForm (h : Shape) (f : Syl) : Bool := h.sdest == .whenScalar && isS f.d.toNat && h.scalar { f with d := 244 }

/-- The result of an operation with a V or S destination: a scalar form executes once, in class VA, for the whole latch;
otherwise each active lane has its result (R98, R99, R100). The value of a lane is `val l`; a scalar form takes that of
the group's lowest lane. -/
def State.vecResult (s : State) (w : Warp) (h : Shape) (f : Syl) (cls : Nat) (wide : Bool) (val : Nat → DWord) : State :=
  let act := w.r.active f.g1 f.g2
  if act = 0 then s
  else if isScalarForm h f then
    let v := val (lowLane w.r.group.mask)
    s.pushVec f.d.toNat 0 wide (laneBit 0) allLanes fun _ => v
  else s.pushVec f.d.toNat cls wide act act val

end Sys2Proof.Machine
end

