-- ==== Sys2Proof/Machine/Matrix.lean ====
section
/-! DEFINITION. The matrix unit: fragments, blocks, tiles and tokens (R179 to R185, R327, R328). -/

namespace Sys2Proof.Machine

/-- The combinations of R179: the accumulator kind, integer or not; none where they are not accepted. -/
def accKind (fmt : DWord) : Option Bool :=
  let a := fmtField fmt 0
  let b := fmtField fmt 4
  let o := fmtField fmt 8
  let fl := o == 0 || o == 1 || o == 2 || o == 3 || o == 4
  let it := o == 8 || o == 5 || o == 6 || o == 9
  if ((a == 1 || a == 2) && (b == 1 || b == 2)) || (a == 3 && b == 3) || (a == 4 && b == 4) then
    (if fl then some false else none)
  else if ((a == 5 || a == 9) && (b == 5 || b == 9)) || (a == 6 && b == 6) then (if it then some true else none)
  else none

/-- Elements of A per word (R179). -/
def fragN (fmt : DWord) : Nat := 32 / fmtWidth (fmtField fmt 0)

def reservedFmt (c : Nat) : Bool := decide (10 ≤ c)

/-- The warp holds tile t of its sub-core and has issued no release of it (R181). -/
def holdsTile (s : State) (g t : Nat) : Bool :=
  decide (((s.sub (subOf g)).tile t).token = .held g) &&
  !s.mats.any fun e => e.2.warp == g && e.2.tile == t && e.2.kind == .mrel

def waitsTile (s : State) (g t : Nat) : Bool := ((s.sub (subOf g)).tile t).queue.any fun e => e.1 == g

def raiseIf (b : Bool) (pc : DWord) (cause : Nat) (lanes : Lanes) : List TrapInfo :=
  if b then [raise1 pc cause lanes 0] else []

/-- The kind that tile t has at an issue: that of the last operation in flight that sets it, else its own (R88, R185). -/
def kindAt (s : State) (n t : Nat) : Bool :=
  let sets := s.mats.filter fun e => e.2.sub == n && e.2.tile == t && (e.2.kind == .mwr || e.2.kind == .mzero)
  match sets.getLast? with
  | some e => fmtIsInt (fmtField e.2.fmt 8)
  | none => ((s.sub n).tile t).integer

/-- Matrix causes at issue (R171, R179 to R185). A warp whose tile has been retired no longer holds its token: its operations on it raise
0x0AA, and MACQ alone 0x0AF. (log 80, DEDUCED) -/
def matRaises (s : State) (w : Warp) (i : Instr) : List TrapInfo :=
  let g := s.cur
  let pc := s.issue.pc
  let grp := w.r.group.mask
  let o := fmtField w.r.fmt 8
  let tileOf := fun t => (s.sub (subOf g)).tile t
  let retired := fun t => decide ((tileOf t).token = .retired)
  let kind := kindAt s (subOf g)
  match i with
  | .mma f | .mmas f =>
    let t := f.d.toNat
    raiseIf (w.flag f.e.toNat).bound pc 0x0A8 grp ++ raiseIf (w.r.active f.g1 f.g2 != allLanes) pc 0x0A9 grp ++
    raiseIf (!holdsTile s g t) pc 0x0AA grp ++ raiseIf (accKind w.r.fmt).isNone pc 0x0AB grp ++
    raiseIf (match accKind w.r.fmt with
      | some k => k != kind t
      | none => false) pc 0x0AC grp ++ raiseIf (retired t) pc 0x0AF grp
  | .macq f =>
    if w.r.active f.g1 f.g2 = 0 then []
    else raiseIf (w.flag f.e.toNat).bound pc 0x0A8 grp ++
      raiseIf (holdsTile s g f.d.toNat || waitsTile s g f.d.toNat) pc 0x0AD grp ++ raiseIf (retired f.d.toNat) pc 0x0AF grp
  | .mrd f =>
    raiseIf (w.r.active f.g1 f.g2 != allLanes) pc 0x0A9 grp ++ raiseIf (!holdsTile s g f.a.toNat) pc 0x0AA grp ++
    raiseIf (o == 7) pc 0x0AB grp ++ raiseIf (fmtIsInt o != kind f.a.toNat) pc 0x0AC grp ++
    raiseIf (retired f.a.toNat) pc 0x0AF grp
  | .mrel f =>
    if f.op64 then
      raiseIf (w.r.active f.g1 f.g2 != allLanes) pc 0x0A9 grp ++ raiseIf (!holdsTile s g f.a.toNat) pc 0x0AA grp ++
      raiseIf (o == 7) pc 0x0AB grp ++ raiseIf (fmtIsInt o != kind f.a.toNat) pc 0x0AC grp ++
      raiseIf (retired f.a.toNat) pc 0x0AF grp
    else if w.r.active f.g1 f.g2 = 0 then []
    else raiseIf (!holdsTile s g f.a.toNat) pc 0x0AA grp ++ raiseIf (retired f.a.toNat) pc 0x0AF grp
  | .mwr f =>
    raiseIf (w.r.active f.g1 f.g2 != allLanes) pc 0x0A9 grp ++ raiseIf (!holdsTile s g f.d.toNat) pc 0x0AA grp ++
    raiseIf (o == 7) pc 0x0AB grp ++ raiseIf (retired f.d.toNat) pc 0x0AF grp
  | .mzero f =>
    if w.r.active f.g1 f.g2 = 0 then []
    else raiseIf (!holdsTile s g f.d.toNat) pc 0x0AA grp ++ raiseIf (o == 7) pc 0x0AB grp ++
      raiseIf (retired f.d.toNat) pc 0x0AF grp
  | _ => []

/-- The format codes that a matrix instruction reads (R84). -/
def matFmts (i : Instr) (fmt : DWord) : List Nat :=
  match i with
  | .mma _ | .mmas _ => [fmtField fmt 0, fmtField fmt 4, fmtField fmt 8]
  | .mrd _ | .mwr _ | .mzero _ => [fmtField fmt 8]
  | .mrel f => if f.op64 then [fmtField fmt 8] else []
  | _ => []

/-! ### Issue -/

/-- Registers of a fragment by 64·s + lane, zeros left out. -/
def fragment (w : Warp) (iss : Issue) (f : Syl) (code words : Nat) : Table Word :=
  (List.range words).flatMap fun s => (laneList allLanes).filterMap fun l =>
    let v := srcWord w iss f.e code s l
    if v = 0 then none else some (64 * s + l, v)

/-- Put a matrix operation in issue order (R185). -/
def State.issueMat (s : State) (w : Warp) (kind : MatKind) (tile flag reply : Nat) (a b c : Table Word) : State :=
  let m : MatOp := { warp := s.cur, sub := subOf s.cur, tile := tile, kind := kind, flag := flag, a := a, b := b, c := c,
                     fmt := w.r.fmt, ovt := ovtOf s w.ctx, reply := reply }
  { s with mats := tput s.mats s.nextId m, nextId := s.nextId + 1 }

/-- The readout of MRD and MREL: a reply that the operation fills (R184). -/
def State.issueReadout (s : State) (w : Warp) (f : Syl) (tile : Nat) : State :=
  let id := s.nextId
  (s.issueReply s.cur f.d.toNat 4 allLanes [] false false).issueMat w .mrd tile 0 id [] [] []

/-! ### Tile elements (R87, R88) -/

def Tile.elem (t : Tile) (i j : Nat) : BitVec 34 := tget 0 t.elems (16 * i + j)

/-- Element (i, k) of a fragment whose word holds n elements of width w: register k / n mod `words`, lane quarter. -/
def fragElem (fr : Table Word) (n words w row k : Nat) : Nat :=
  let q := k / (words * n)
  let s := k / n % words
  bitsOf (tget 0 fr (64 * s + (16 * q + row))).toNat (w * (k % n)) w

/-- The scale of a floating format (R86). -/
def scaleOf (fmt : DWord) (lo : Nat) : Int := asSigned 8 (bitsOf fmt.toNat lo 8)

/-- Product p(k) as an exact value with its scales (R182). -/
def scaledTerm (fmt : DWord) (x y : Nat) : FVal :=
  ((fmtValue (fmtField fmt 0) x).scale (scaleOf fmt 16)).mul ((fmtValue (fmtField fmt 4) y).scale (scaleOf fmt 24))

/-- The block added to one element: pairs of codes in k order (R88, R90). -/
def blockElem (fmt : DWord) (integer : Bool) (c : BitVec 34) (ps : List (Nat × Nat)) : BitVec 34 :=
  if integer then
    BitVec.ofNat 34 (intBits 32 (intBlock (asSigned 32 (c.toNat % 2 ^ 32))
      (ps.map fun p => fmtInt (fmtField fmt 0) p.1 * fmtInt (fmtField fmt 4) p.2)))
  else BitVec.ofNat 34 (blockSum (fpAcc.value c.toNat :: ps.map fun p => scaledTerm fmt p.1 p.2))

/-- Metadata of group g of row i: idx0 and idx1 (R183). -/
def metaOf (c : Table Word) (n i g : Nat) : Nat × Nat :=
  let word := (tget 0 c (16 * (g / n) + i)).toNat
  (bitsOf word (4 * (g % n)) 2, bitsOf word (4 * (g % n) + 2) 2)

def metaBad (c : Table Word) (n : Nat) : Bool :=
  (List.range 16).any fun i => (List.range (4 * n)).any fun g => decide ((metaOf c n i g).2 ≤ (metaOf c n i g).1)

/-- The code pairs of element (i, j) of an MMA. -/
def mmaPairs (m : MatOp) (i j : Nat) : List (Nat × Nat) :=
  let n := fragN m.fmt
  let wa := fmtWidth (fmtField m.fmt 0)
  let wb := fmtWidth (fmtField m.fmt 4)
  (List.range (8 * n)).map fun k => (fragElem m.a n 2 wa i k, fragElem m.b n 2 wb j k)

/-- The code pairs of element (i, j) of an MMAS: retained values against dense positions. -/
def mmasPairs (m : MatOp) (i j : Nat) : List (Nat × Nat) :=
  let n := fragN m.fmt
  let wa := fmtWidth (fmtField m.fmt 0)
  let wb := fmtWidth (fmtField m.fmt 4)
  (List.range (8 * n)).map fun t =>
    let g := t / 2
    let idx := if t % 2 = 0 then (metaOf m.c n i g).1 else (metaOf m.c n i g).2
    (fragElem m.a n 2 wa i t, fragElem m.b n 4 wb j (4 * g + idx))

/-- A tile with every element given. -/
def Tile.fill (t : Tile) (integer : Bool) (f : Nat → Nat → BitVec 34) : Tile :=
  let es := (List.range 256).filterMap fun e =>
    if f (e / 16) (e % 16) = 0 then none else some (e, f (e / 16) (e % 16))
  { t with integer := integer, elems := es }

/-- MRD's value of one element: a word (R184). -/
def readElem (m : MatOp) (integer : Bool) (e : BitVec 34) : Word :=
  let o := fmtField m.fmt 8
  BitVec.ofNat 32 (
    if integer then intToInt o (m.fmt.getLsbD 14) (asSigned 32 (e.toNat % 2 ^ 32))
    else roundFmt o (RMode.ofNat4 (bitsOf m.fmt.toNat 12 2)) (ovtEntry m.ovt o) ((fpAcc.value e.toNat).scale (scaleOf m.fmt 32)))

/-- MWR's element from a word: the exact value of element 0 in OFMT. -/
def writeElem (m : MatOp) (x : Word) : BitVec 34 :=
  let o := fmtField m.fmt 8
  if fmtIsInt o then BitVec.ofNat 34 (intBits 32 (fmtInt o x.toNat))
  else BitVec.ofNat 34 (fpAcc.round .rne 1 (fmtValue o x.toNat))

/-- Element place of word s of lane l (R184). -/
def quadWord (t : Table Word) (i j : Nat) : Word := tget 0 t (64 * (i / 4) + (16 * (i % 4) + j))

/-- The oldest operation on its tile (R185). -/
def matOldest (s : State) (id : Nat) (m : MatOp) : Bool :=
  !s.mats.any fun e => e.1 < id && e.2.sub == m.sub && e.2.tile == m.tile

def State.fillReply (s : State) (id : Nat) (vals : Table Word) : State :=
  { s with replies := s.replies.map fun e => if e.1 = id then (e.1, { e.2 with vals := vals, ready := true }) else e }

/-- An operation that reads the elements of its tile. -/
def MatKind.reads (k : MatKind) : Bool :=
  match k with
  | .mma | .mmas | .mrd => true
  | _ => false

/-- The operation reads a tile with an uncorrected error: its warp takes 0x144 at its next bundle boundary (R333; log 56, DEDUCED). -/
def State.readTile (s : State) (m : MatOp) : State :=
  let p := 32 * m.sub + m.tile
  if m.kind.reads && s.bad.contains (4, p) then
    (s.meetError 4 p 0 (((tfind s.warps m.warp).map fun w => w.lnid.toNat).getD 0)).modWarp m.warp fun w =>
      if w.ended then w else { w with notices := w.notices ++ [(0x144, 0)] }
  else s

/-- MATRIX_OP_COMPLETE (R182 to R184): the operation is performed in issue order on its tile. On a tile that has retired meanwhile a
product ends with 0x0AF on its flag and nothing is written (R327, R328; log 69, DEDUCED). A tile that is being tested holds its
operations (R352). -/
def State.completeMat (s : State) (id : Nat) : State :=
  match tfind s.mats id with
  | none => s
  | some m =>
    if !matOldest s id m || m.kind == .mrel || s.tests.contains (4, 32 * m.sub + m.tile) then s
    else
      let s := s.readTile m
      let x := (s.sub m.sub).tile m.tile
      let done := { s with mats := terase s.mats id }
      let gone := decide (x.token = .retired)
      let put := fun t : Tile => if gone then done else done.modSub m.sub fun c => c.setTile m.tile t
      let finish := fun s : State => if gone then s.finishFlag m.warp m.flag 2 0x0F else s.finishFlag m.warp m.flag 1 0
      match m.kind with
      | .mma => finish (put (x.fill x.integer fun i j => blockElem m.fmt x.integer (x.elem i j) (mmaPairs m i j)))
      | .mmas =>
        if metaBad m.c (fragN m.fmt) then done.finishFlag m.warp m.flag 2 0x0E
        else finish (put (x.fill x.integer fun i j => blockElem m.fmt x.integer (x.elem i j) (mmasPairs m i j)))
      | .mrd =>
        done.fillReply m.reply ((List.range 4).flatMap fun s4 => (List.range 64).filterMap fun l =>
          let v := readElem m x.integer (x.elem (4 * s4 + l / 16) (l % 16))
          if v = 0 then none else some (64 * s4 + l, v))
      | .mwr => put (x.fill (fmtIsInt (fmtField m.fmt 8)) fun i j => writeElem m (quadWord m.a i j))
      | .mzero => put (x.fill (fmtIsInt (fmtField m.fmt 8)) fun _ _ => 0)
      | .mrel => s

/-- TOKEN_RELEASE (R181, R328): the release is the oldest operation on its tile and its readout has been delivered. -/
def State.releaseToken (s : State) (n t : Nat) : State :=
  match s.mats.find? fun e => e.2.sub == n && e.2.tile == t with
  | none => s
  | some (id, m) =>
    if m.kind = .mrel && (tfind s.replies m.reply).isNone then
      let s := { s with mats := terase s.mats id }
      if ((s.sub n).tile t).token = .held m.warp then s.passToken n t else s
    else s

end Sys2Proof.Machine
end

