-- ==== Sys2Proof/Machine/Tasks.lean ====
section
/-! DEFINITION. Tasks: the cactus segment, continuation records, join counters, kitties (R276 to R280, R286, R287). -/

namespace Sys2Proof.Machine

def csBase (s : State) (cl : Nat) : Nat := bitsOf (sregGet s (sregKey 0x150 cl) 0).toNat 12 44 * 4096
def csSize (s : State) (cl : Nat) : Nat := bitsOf (sregGet s (sregKey 0x151 cl) 0).toNat 0 28

/-- The lowest free address from `at1` on with room for n bytes before `limit` (R276); the allocations rise. -/
def lowestFit (n limit : Nat) : Nat → Table Nat → Option Nat
  | at1, [] => if at1 + n ≤ limit then some at1 else none
  | at1, (a, m) :: t => if at1 + n ≤ a then some at1 else lowestFit n limit (max at1 (a + m)) t

def cactusFit (s : State) (cl n : Nat) : Option Nat :=
  lowestFit n (csBase s cl + csSize s cl) (csBase s cl) (s.cluster cl).cactus

/-- Room for a second allocation when the first has been made at `a`. -/
def cactusFit2 (s : State) (cl a n m : Nat) : Option Nat :=
  lowestFit m (csBase s cl + csSize s cl) (csBase s cl) (tput (s.cluster cl).cactus a n)

def State.cactusTake (s : State) (cl a n : Nat) : State := s.modCluster cl fun c => { c with cactus := tput c.cactus a n }

/-! ### Records (R277) -/

structure TaskRec where
  pc : Nat
  kind : Nat
  prio : Nat
  resumed : Bool
  frame : Nat
  parent : Nat
  join : Nat
  lnid : Nat
  allot : Nat
  aff : Nat
  stage : Nat
  rd : Nat
  lat : Nat
  args : List Nat
  deriving DecidableEq, Repr

/-- The allotment of the task's warp. A byte that is no multiple of 16 from 16 to 192 counts as the next one that is. No rule says what such
a record does. (log 89, DESIGN CHOICE) -/
def TaskRec.regs (r : TaskRec) : Nat := min 192 (max 16 ((r.allot + 15) / 16 * 16))

def taskBytes (r : TaskRec) : Sparse :=
  fieldAt 0 8 (r.pc / 32 * 32 % 2 ^ 56 + 2 ^ 56 * r.kind + 2 ^ 58 * r.prio + (if r.resumed then 2 ^ 60 else 0)) ++
  fieldAt 8 8 r.frame ++ fieldAt 0x10 8 r.parent ++ fieldAt 0x18 4 r.join ++ fieldAt 0x1C 4 r.lnid ++ fieldAt 0x20 1 r.allot ++
  fieldAt 0x21 1 r.aff ++ fieldAt 0x22 1 r.stage ++ fieldAt 0x23 1 r.rd ++ fieldAt 0x24 4 r.lat ++
  (r.args.zipIdx).flatMap fun e => fieldAt (0x28 + 4 * e.2) 4 e.1

def readTask (bs : List Byte) : TaskRec :=
  let w := recField bs 0 8
  { pc := w % 2 ^ 56 / 32 * 32, kind := bitsOf w 56 2, prio := bitsOf w 58 2, resumed := w.testBit 60, 
    frame := recField bs 8 8, parent := recField bs 0x10 8, join := recField bs 0x18 4, lnid := recField bs 0x1C 4,
    allot := recField bs 0x20 1, aff := recField bs 0x21 1, stage := recField bs 0x22 1, rd := recField bs 0x23 1,
    lat := recField bs 0x24 4, args := (List.range 6).map fun i => recField bs (0x28 + 4 * i) 4 }

/-- The four declared latencies as a word of bytes. -/
def latWord (l : List Nat) : Nat := (l.take 4).zipIdx.foldl (fun a e => a + e.1 % 256 * 256 ^ e.2) 0

/-- S0 to S5 (R6). -/
def argWords (r : Regs) : List Nat := (List.range 6).map fun i => (r.readS i).toNat

/-- AFF of a new task: the issuing die when the parent's AFF is a die (R277). -/
def affinity (g parentAff : Nat) : Nat := if parentAff < 4 then dieOf g else 0xFF

/-! ### Join counters (R280) -/

def State.addJoin (s : State) (cl : Nat) (who : Who) (va : Nat) : State :=
  let r := readField s cl who (va + 0x18) 4
  (writeVa cl who r.1 (va + 0x18) 4 (fieldAt 0 4 (r.2 + 1))).1

/-- The kitty of a cluster takes a record at the bottom (R278). -/
def State.pushKitty (s : State) (cl key : Nat) : State := s.modCluster cl fun c => { c with kitty := key :: c.kitty }

/-- Lower a parent's counter. At 0 a suspended parent's record is pushed into the kitty of cluster cl (R280); the
children of a taskless warp that has exited count toward its team (R287). -/
def State.subJoin (s : State) (cl : Nat) (who : Who) (va : Nat) : State :=
  let r := readField s cl who (va + 0x18) 4
  let n := r.2 - 1
  let s := (writeVa cl who r.1 (va + 0x18) 4 (fieldAt 0 4 n)).1
  let key := recKey who.ctx va
  let s := match tfind s.orphans key with
    | some t =>
      let s := s.modTeam t fun x => { x with tasks := x.tasks - 1 }
      if n = 0 then { s.cactusFree who.part va with orphans := terase s.orphans key } else s
    | none => s
  if n = 0 ∧ key ∈ s.suspended then
    { s with suspended := s.suspended.filter fun x => x ≠ key }.pushKitty cl key
  else s

/-- What a task's end owes: its parent's counter, or with PARENT 0 its team's count (R211, R280, R287). -/
def State.endTask (s : State) (cl : Nat) (w : Warp) : State :=
  if w.parent ≠ 0 then s.subJoin cl w.who w.parent
  else
    match w.root with
    | some t => s.modTeam t fun x => { x with tasks := x.tasks - 1 }
    | none => s

/-- Every earlier access in a list of identities has been performed at `.team` (R170). -/
def afterDone (s : State) (ids : List Nat) : Bool :=
  ids.all fun id =>
    match tfind s.mops id with
    | none => true
    | some o => decide (o.lanes &&& ~~~o.team = 0)

/-- The earlier accesses of the issuing group's lanes that are not yet performed (R170). -/
def afterOf (s : State) (g : Nat) (mask : Lanes) : List Nat :=
  s.mops.filterMap fun e => if e.2.warp = g ∧ e.2.kind.isAccess ∧ e.2.act &&& mask ≠ 0 ∧ e.2.setAside (levelOf s g) = 0 then some e.1 else none

end Sys2Proof.Machine
end

