-- ==== Sys2Proof/Machine/Copy.lean ====
section
/-! DEFINITION. The copy engine (R174 to R178, R244, R322 to R326). -/

namespace Sys2Proof.Machine

/-! ### Issue -/

/-- HND of the shadow set (R174). -/
def Regs.hnd (r : Regs) : Nat := (tget 0 r.shadow 4).toNat

/-- The address operand A of an engine instruction: one 64-bit value for the warp (R167, R169). -/
def engAddr (w : Warp) (iss : Issue) (f : Syl) : Nat := (src64 w iss f.e f.a.toNat (lowLane w.r.group.mask)).toNat

/-- Causes of CGO, CGATH and CSCAT at issue (R171, R175). With no active lane a gather names a flag and nothing more. -/
def copyRaises (s : State) (w : Warp) (f : Syl) (rows : Bool) : List TrapInfo :=
  let act := w.r.active f.g1 f.g2
  let pc := s.issue.pc
  let grp := w.r.group.mask
  if act = 0 && !rows then []
  else
    (if (w.flag f.e.toNat).bound then [raise1 pc 0x0A0 grp 0] else []) ++
    (if act = 0 then []
     else
      (if 64 ≤ w.r.hnd || (handleOf s w w.r.hnd).isNone then [raise1 pc 0x0A1 grp 0] else []) ++
      (if engAddr w s.issue f % 64 ≠ 0 then [raise1 pc 0x080 act (engAddr w s.issue f)] else []))

/-- Operations in a cluster's copy queue (R178). -/
def copyCount (s : State) (cl : Nat) : Nat := (s.copies.filter fun e => e.2.cluster == cl).length

/-- Put a copy operation into the queue: shadow set, flag, lanes, indices and handle as they stand (R174, R325). -/
def State.issueCopy (s : State) (w : Warp) (f : Syl) (dir : CopyDir) : State :=
  let act := w.r.active f.g1 f.g2
  let rows := dir == .gather || dir == .scatter
  let g := s.cur
  if act = 0 then
    (if rows then ((s.modWarp g fun w => w.bindFlag f.e.toNat s.nextId).finishFlag g f.e.toNat 1 0).setErrAddr g f.e.toNat 0 else s)
  else
    let c : CopyOp :=
      { warp := g, cluster := clusterOf g, team := w.team, flag := f.e.toNat, dir := dir, shadow := w.r.shadow,
        recAddr := BitVec.ofNat 64 (engAddr w s.issue f), lanes := act,
        index := if rows then laneTable 0 act fun l => src32 w s.issue f.e f.b.toNat l else [],
        handle := match handleOf s w w.r.hnd with
          | some h => h.gen
          | none => 0,
        level := w.level, ctx := w.ctx, part := w.part, stage := 0, record := [],
        after := afterOf s g w.r.group.mask, pc := s.issue.pc }
    { (s.modWarp g (fun w => w.bindFlag f.e.toNat s.nextId)).setErrAddr g f.e.toNat 0 with copies := tput s.copies s.nextId c, nextId := s.nextId + 1 }

/-! ### The tensor shape record (R322, R323) -/

def tensorOk (c : CopyOp) (r : List Byte) : Bool :=
  let t := tensorOf r
  let es := t.esize
  let dims := List.range 4
  (es == 1 || es == 2 || es == 4 || es == 8) && t.base % es == 0 && decide (t.base < 2 ^ 56) &&
  decide (1 ≤ t.rank) && decide (t.rank ≤ 4) && recField r 0xA 6 == 0 && recField r 0x58 104 == 0 &&
  (dims.all fun d =>
    let x := t.ext.getD d 0
    let b := t.box.getD d 0
    if d < t.rank then decide (1 ≤ x) && decide (x < 2 ^ 31) && decide (t.stride.getD d 0 % es = 0) && decide (1 ≤ b) &&
      decide (b ≤ if d = 0 then 16384 else 65536)
    else x == 0 && decide (t.stride.getD d 0 = 0) && b == 1) &&
  decide (t.rowLen ≤ 65536) && decide (t.fill < 256 ^ es) &&
  !(decide (t.rank < 2) && (c.dir == .gather || c.dir == .scatter))

/-- One element: its tile offset, and its address where it lies inside the tensor. -/
abbrev Elem := Nat × Option Int

def Tensor.inside (t : Tensor) (x : List Int) : Bool :=
  (List.range t.rank).all fun d => decide (0 ≤ x.getD d 0) && decide (x.getD d 0 < (t.ext.getD d 0 : Int))

def Tensor.addr (t : Tensor) (x : List Int) : Int :=
  (List.range t.rank).foldl (fun a d => a + x.getD d 0 * t.stride.getD d 0) (t.base : Int)

/-- The elements of one row, e rising. -/
def rowElems (c : CopyOp) (t : Tensor) (row : Nat) (x1 x2 x3 : Int) : List Elem :=
  let org0 := (tget 0 c.shadow 0).toInt
  (List.range (t.box.getD 0 1)).map fun (e : Nat) =>
    let x := [org0 + (e : Int), x1, x2, x3]
    (c.hoff + row * c.pitch t + e * t.esize, if t.inside x then some (t.addr x) else none)

def CopyOp.org (c : CopyOp) (d : Nat) : Int := (tget 0 c.shadow d).toInt

/-- Every row of an operation, in order (R175, R176). -/
def copyRows (c : CopyOp) (t : Tensor) : List (List Elem) :=
  match c.dir with
  | .gather => (laneList c.lanes).zipIdx.map fun e => rowElems c t e.2 (tget 0 c.index e.1).toInt (c.org 2) (c.org 3)
  | .scatter => (laneList c.lanes).zipIdx.map fun e => rowElems c t e.2 (tget 0 c.index e.1).toInt (c.org 2) (c.org 3)
  | _ =>
    let b1 := t.box.getD 1 1
    let b2 := t.box.getD 2 1
    (List.range (c.rows t)).map fun r =>
      rowElems c t r (c.org 1 + (r % b1 : Nat)) (c.org 2 + (r / b1 % b2 : Nat)) (c.org 3 + (r / (b1 * b2) : Nat))

/-- The byte of the handle at which the range of an operation first fails (R175, R177). -/
def rangeFail (c : CopyOp) (t : Tensor) (alloc : Nat) : Option Nat :=
  match (List.range (c.rows t)).find? fun r => decide (alloc < c.hoff + r * c.pitch t + t.rowLen) with
  | some r => some (max alloc (c.hoff + r * c.pitch t))
  | none => none

def CopyOp.who (c : CopyOp) : Who := { ctx := c.ctx, part := c.part, level := c.level }
def CopyOp.writesTile (c : CopyOp) : Bool := c.dir == .load || c.dir == .gather

/-- The flag detail of a translation fault (R171): not permitted, window unreachable, or another fault. -/
def copyReason (q : Nat) : Nat := if q = 1 ∨ q = 2 ∨ q = 6 then 5 else if q = 5 then 6 else 4

/-- The addresses that an operation writes, in the order of its elements. -/
def copyTargets (c : CopyOp) : List Nat :=
  if c.writesTile then []
  else (copyRows c (tensorOf c.record)).flatMap fun row => row.filterMap fun e => e.2.bind fun a =>
    if a < 0 ∨ (2 ^ 56 : Int) ≤ a then none else some a.toNat

/-- Translate each page that an operation writes, once; a window that is down is met again at the element (R244). (log 85, DEDUCED) -/
def State.copyPages (s : State) (c : CopyOp) : State × CopyOp :=
  (copyTargets c).foldl (fun (x : State × CopyOp) a =>
    let v := a / 2 ^ 16
    if (tfind x.2.pages v).isSome || (tfind x.2.noPage v).isSome then x
    else
      match translate x.1 c.cluster c.who .write a with
      | (s, .ok k) => (s, { x.2 with pages := tput x.2.pages v (k - a % 2 ^ 16) })
      | (s, .fault q) => (s, if q = 5 then x.2 else { x.2 with noPage := tput x.2.noPage v q })
      | (s, .miss) => (s, { x.2 with noPage := tput x.2.noPage v 0 })) (s, c)

/-- The named byte that an operation writes for an address, or the reason of its fault. -/
def CopyOp.place (c : CopyOp) (s : State) (a : Nat) : Except Nat Nat :=
  match tfind c.pages (a / 2 ^ 16) with
  | some b =>
    let k := b + a % 2 ^ 16
    if isWindow k && !windowUp s (bitsOf (keyPa k) 46 6) (bitsOf (keyPa k) 0 46) then .error 5 else .ok k
  | none => .error ((tfind c.noPage (a / 2 ^ 16)).getD 5)

/-- The lines of device memory that an operation writes (R244). -/
def copyLines (c : CopyOp) : List Nat :=
  ((copyTargets c).filterMap fun a => (tfind c.pages (a / 2 ^ 16)).bind fun b =>
    if isWindow b then none else some (lineOf (b + a % 2 ^ 16))).dedup

/-! ### Completion -/

/-- Take the lines that no other operation owns: S copies go, U copies combine (R244). -/
def State.takeLines (s : State) (id : Nat) (lines : List Nat) : State :=
  lines.foldl (fun s line =>
    if (dirOf s line).owner.isNone then
      let s := s.combineLine line
      s.setDir line { sDies := [], owner := some id }
    else s) s

/-- The accepted operations that wait for one of the lines, the first accepted first. -/
def lineWaiters (s : State) (lines : List Nat) : List (Nat × Nat × List Nat) :=
  let ws := s.copies.filterMap fun e =>
    let want := if e.2.stage = 1 ∨ e.2.stage = 2 then (copyLines e.2).filter fun l => lines.contains l else []
    if want.isEmpty then none else some (e.2.accepted, e.1, want)
  ws.mergeSort fun a b => decide (a.1 ≤ b.1)

/-- The operation ends: its entry is freed, its lines go to the operations that wait for them in the order of acceptance, its flag is
written (R178, R244). -/
def State.finishCopy (s : State) (id state outcome : Nat) (errAddr : Nat) : State :=
  match tfind s.copies id with
  | none => s
  | some c =>
    let mine := (s.dir.filter fun e => decide (e.2.owner = some id)).map (·.1)
    let s := mine.foldl (fun s l => s.setDir l { dirOf s l with owner := none }) s
    let s := { s with copies := terase s.copies id }
    let s := if mine.isEmpty then s else (lineWaiters s mine).foldl (fun s e => s.takeLines e.2.1 e.2.2) s
    (s.finishFlag c.warp c.flag state outcome).setErrAddr c.warp c.flag (BitVec.ofNat 64 errAddr)

/-- Stores of the operation's own warp, issued before it, have reached their homes (R170, R257). -/
def storesHome (s : State) (id g : Nat) : Bool :=
  s.mops.all fun e => e.2.warp != g || decide (id < e.1) || !e.2.kind.isWrite || decide (e.2.lanes &&& ~~~e.2.die = 0)

/-- A translation fault of the operation counts in the sketches (R371). -/
def State.copyFault (s : State) (c : CopyOp) : State := s.sketchEvent c.cluster 0x02 c.pc.toNat 1

/-- COPY_QUEUE_ACCEPT (R244, R324): in queue order the operation looks its record up, is checked, and takes ownership. -/
def State.acceptCopy (s : State) (id : Nat) : State :=
  match tfind s.copies id with
  | none => s
  | some c =>
    let older := s.copies.any fun e => e.1 < id && e.2.cluster == c.cluster && e.2.stage == 0
    let key := recKey c.ctx c.recAddr.toNat
    let hit := (s.cluster c.cluster).recs.find? fun e => e.1 == key
    if c.stage ≠ 0 || older || !afterDone s c.after || (!c.writesTile && !storesHome s id c.warp) ||
        ((hit.isNone || !c.writesTile) && !slotOpen s c.part) then s
    else
      let r := match hit with
        | some e => (s, Except.ok e.2)
        | none => readRecord c.cluster c.who s c.recAddr.toNat 192
      match r with
      | (s, .error e) => (s.copyFault c).finishCopy id 2 (copyReason e.1) e.2
      | (s, .ok bs) =>
        let s := s.modCluster c.cluster fun q => { q with recs := ((key, bs) :: q.recs.filter fun e => e.1 ≠ key).take 16 }
        if !tensorOk c bs then s.finishCopy id 2 3 c.recAddr.toNat
        else
          let t := tensorOf bs
          let alloc := match findHandle s c.team c.handle with
            | some h => h.size
            | none => 0
          match rangeFail c t alloc with
          | some o => s.finishCopy id 2 2 o
          | none =>
            let (s, c) := s.copyPages { c with record := bs, stage := 1, accepted := s.nextId }
            { s with copies := tput s.copies id c, nextId := s.nextId + 1 }.takeLines id (copyLines c)

/-- The tile ranges of two operations on one handle meet and one of them writes the tile (R325). -/
def tilesClash (a b : CopyOp) : Bool :=
  a.handle == b.handle && (a.writesTile || b.writesTile) && rangesMeet a.hoff a.tileBytes b.hoff b.tileBytes

/-- COPY_CHANNEL_START (R325): the oldest entry starts when it has been accepted, a channel is free and no older operation's tile range
stands in its way. -/
def State.startCopy (s : State) (cl : Nat) : State :=
  if 4 ≤ (s.copies.filter fun e => e.2.cluster == cl && 2 ≤ e.2.stage).length then s
  else
    match s.copies.find? fun e => e.2.cluster == cl && e.2.stage < 2 with
    | none => s
    | some (id, c) =>
      if c.stage ≠ 1 || s.copies.any (fun e => e.1 < id && tilesClash e.2 c) then s
      else { s with copies := tput s.copies id { c with stage := 2 } }

/-! ### Moving the elements -/

/-- A run over the elements of an operation. `waits`: the next element waits for tokens or for a peer. `posts`: the bytes of the present
run for peer windows, by named byte. An answer holds the 128 bytes of a line, or from 2^1024 on a refusal. -/
structure CopyRun where
  s : State
  c : CopyOp
  err : Option (Nat × Nat)
  waits : Bool
  posts : Table Byte
  answers : List Nat

/-- An element with an uncorrected error stops the operation with outcome 7 (R171). (log 56, DEDUCED) -/
def CopyRun.poison (r : CopyRun) (e : Nat × Nat) (va : Nat) : CopyRun :=
  { r with s := r.s.meetError e.1 e.2 0 (((tfind r.s.warps r.c.warp).map fun w => w.lnid.toNat).getD 0), err := some (7, va) }

def CopyRun.fail (r : CopyRun) (outcome va : Nat) : CopyRun := { r with err := some (outcome, va) }

/-- An element meets a translation fault with a reason of R235. -/
def CopyRun.fault (r : CopyRun) (q va : Nat) : CopyRun := { r with s := r.s.copyFault r.c }.fail (copyReason q) va

/-- One more element has been moved. -/
def CopyRun.next (r : CopyRun) : CopyRun := { r with c := { r.c with moved := r.c.moved + 1 } }

/-- The port that serves a named byte takes a token for its unit of 32 bytes, unless the element before lay in the same unit (R250).
(log 19, DEDUCED) -/
def CopyRun.pay (r : CopyRun) (k : Nat) : CopyRun :=
  let port := portOf r.c.cluster k
  if r.c.paid = some (k / 32) then r
  else if bucketPays r.s r.c.ctx port 1 then
    { r with s := r.s.bucketCharge r.c.ctx port 1, c := { r.c with paid := some (k / 32) } }
  else { r with waits := true }

/-- The line of a named byte counts once for the operation, for the bundle that issued it (R252, R296). -/
def CopyRun.count (r : CopyRun) (k : Nat) : CopyRun :=
  if r.c.counted.contains (lineOf k) then r
  else { r with s := r.s.countLine r.c.cluster r.c.pc.toNat (lineOf k), c := { r.c with counted := lineOf k :: r.c.counted } }

/-- The line behind a window is asked for once; its answer serves every element of it (R389). -/
def CopyRun.fetchLine (r : CopyRun) (k : Nat) : CopyRun :=
  let u := lineOf k
  if (tfind r.c.got u).isSome then r
  else if !r.c.asked.contains u then
    { r with s := r.s.askPeer (128 * u) 128, c := { r.c with asked := u :: r.c.asked }, waits := true }
  else
    match r.answers with
    | [] => { r with waits := true }
    | a :: t => { r with c := { r.c with got := tput r.c.got u a }, answers := t }

/-- The element's bytes as the cluster's engine reads them: the buffer first, then the home or what the peer answered (R256, R265). -/
def CopyRun.bytes (r : CopyRun) (k n : Nat) : List Byte :=
  (List.range n).map fun i =>
    match bufferByte r.s r.c.cluster (k + i) with
    | some b => b
    | none => match tfind r.c.got (lineOf k) with
      | some a => BitVec.ofNat 8 (a / 256 ^ (k % 128 + i))
      | none => r.s.homeByte (k + i)

/-- The element's bytes enter the tile at an offset. -/
def CopyRun.put (r : CopyRun) (off : Nat) (bs : List Byte) : CopyRun :=
  { r with s := r.s.modHandle r.c.team r.c.handle fun h => h.write off bs }.next

/-- One element of a load (R175): FILL outside the tensor. -/
def loadElem (t : Tensor) (r : CopyRun) (e : Elem) : CopyRun :=
  match e.2 with
  | none => r.put e.1 (natToBytes t.esize t.fill)
  | some a =>
    if a < 0 ∨ (2 ^ 56 : Int) ≤ a then r.fault 0 (a % 2 ^ 64).toNat
    else
      match translate r.s r.c.cluster r.c.who .read a.toNat with
      | (s, .ok k) =>
        let r := { r with s := s }.pay k
        let r := if r.waits then r else if isWindow k then r.fetchLine k
          else { r with s := r.s.combineLine (lineOf k) }
        if r.waits then r
        else if 2 ^ 1024 ≤ (tfind r.c.got (lineOf k)).getD 0 then r.fault 5 a.toNat
        else
          match if isWindow k then none else badLine r.s (lineOf k) with
          | some e => r.poison (e, lineOf k) a.toNat
          | none => (r.count k).put e.1 (r.bytes k t.esize)
      | (s, .fault q) => { r with s := s }.fault q a.toNat
      | (s, .miss) => { r with s := s }.fail 4 a.toNat

/-- A store of the cluster's warps to some of the bytes is in the buffer: an engine's write comes after it has left (R257). -/
def storeBuffered (s : State) (cl k n : Nat) : Bool :=
  s.mops.any fun e => e.2.cluster == cl && (laneList e.2.buffered).any fun l => (List.range n).any fun j => (e.2.coverByte l (k + j)).isSome

/-- One element of a store: outside the tensor it is dropped. -/
def storeElem (t : Tensor) (r : CopyRun) (e : Elem) : CopyRun :=
  match e.2 with
  | none => r.next
  | some a =>
    if a < 0 ∨ (2 ^ 56 : Int) ≤ a then r.fault 0 (a % 2 ^ 64).toNat
    else
      let hnd := findHandle r.s r.c.team r.c.handle
      let bs := (hnd.map fun h => h.read e.1 t.esize).getD []
      match hnd.bind fun h => badBank r.s r.c.cluster h e.1 t.esize with
      | some p => r.poison (1, p) a.toNat
      | none =>
        match r.c.place r.s a.toNat with
        | .ok k =>
          if isWindow k then
            if storeBuffered r.s r.c.cluster k t.esize then { r with waits := true }
            else { r with posts := bs.zipIdx.foldl (fun (p : Table Byte) (b : Byte × Nat) => tput p (k + b.2) b.1) r.posts : CopyRun }.next
          else
            let r := r.pay k
            if r.waits then r else { r.count k with s := (r.count k).s.homeWrite k bs }.next
        | .error q => r.fault q a.toNat

/-- The posted writes of a run of elements: one per line (R389). A line is counted when its first write is sent (R252, R296). -/
def CopyRun.flush (r : CopyRun) (id : Nat) : CopyRun :=
  let c := r.c
  let lines := (r.posts.map fun e => lineOf e.1).dedup
  let s := lines.foldl (fun s u =>
    let p : Posted := { warp := none, cluster := c.cluster, ctx := c.ctx, part := c.part, copy := some (c.warp, c.flag), consumed := false, op := id, lanes := 0, window := bitsOf (keyPa (128 * u)) 46 6,
                        offset := bitsOf (keyPa (128 * u)) 0 46,
                        bytes := (r.posts.filter fun e => lineOf e.1 == u).map fun e => (e.1 % 128, e.2), sent := false,
                        pc := c.pc, fresh := !c.counted.contains u }
    { s with posted := tput s.posted s.nextId p, nextId := s.nextId + 1 }) r.s
  { r with s := s, c := { c with counted := lines ++ c.counted }, posts := [] }

/-- Move one element; a run of elements ends with its row. -/
def moveElem (id : Nat) (t : Tensor) (r : CopyRun) (e : Elem) : CopyRun :=
  if r.err.isSome || r.waits then r
  else
    let q := if r.c.writesTile then loadElem t r e else storeElem t r e
    if q.c.moved % t.box.getD 0 1 = 0 then q.flush id else q

/-- The lines that an operation reads. -/
def copyReads (s : State) (c : CopyOp) : List Nat :=
  if c.writesTile then
    ((copyRows c (tensorOf c.record)).flatMap fun row => row.filterMap fun e => e.2.bind fun a =>
      match (translate s c.cluster c.who .read (a % 2 ^ 56).toNat).2 with
      | .ok k => some (lineOf k)
      | _ => none).dedup
  else []

/-- A structure that the operation reads or writes is being tested (R352). -/
def copyTested (s : State) (c : CopyOp) : Bool :=
  !s.tests.isEmpty && ((copyLines c ++ copyReads s c).any (lineTested s) ||
    match findHandle s c.team c.handle with
    | some h => bankTested s c.cluster h c.hoff c.tileBytes
    | none => false)

/-- The operation may move elements: it owns every line that it writes (R244), the zero fill of its handle is over (R254), the
calendar lets it through (R291), and no structure that it touches is being tested (R352). -/
def copyReady (s : State) (id : Nat) (c : CopyOp) : Bool :=
  !copyTested s c &&
  ((copyLines c).all fun l => (dirOf s l).owner == some id) && handleFilled s c.team c.handle && slotOpen s c.part

/-- What the next element of an operation costs, and at which port (R250). -/
def copyTokens (s : State) (c : CopyOp) : List (Nat × Nat) :=
  match ((copyRows c (tensorOf c.record)).flatten.drop c.moved).head?.bind fun e => e.2 with
  | none => []
  | some a =>
    let place : Option Nat :=
      if c.writesTile then (match (translate s c.cluster c.who .read (a % 2 ^ 56).toNat).2 with
        | .ok k => some k
        | _ => none)
      else (match c.place s (a % 2 ^ 56).toNat with
        | .ok k => if isWindow k then none else some k
        | .error _ => none)
    match place with
    | some k => if c.paid = some (k / 32) then [] else [(portOf c.cluster k, 1)]
    | none => []

/-- COPY_COMPLETE (R175, R176, R178): the elements move in order, as far as the buckets and the peers let them; an error stops the
operation where it stands. -/
def State.completeCopy (s : State) (id : Nat) (answers : List Nat) : State :=
  match tfind s.copies id with
  | none => s
  | some c =>
    if c.stage ≠ 2 || !copyReady s id c then s
    else
      let t := tensorOf c.record
      let r := (((copyRows c t).flatten.drop c.moved).foldl (moveElem id t)
        { s := s, c := c, err := none, waits := false, posts := [], answers := answers : CopyRun }).flush id
      match r.err with
      | some e => r.s.finishCopy id 2 e.1 e.2
      | none =>
        let s := { r.s with copies := tput r.s.copies id r.c }
        if r.waits then s
        else if s.posted.any fun e => e.2.op == id && e.2.warp.isNone && !e.2.sent then
          { s with copies := tput s.copies id { r.c with stage := 3 } }
        else s.finishCopy id 1 0 0

end Sys2Proof.Machine
end

