-- ==== Sys2Proof/Machine/Traverse.lean ====
section
/-! DEFINITION. The traversal engine (R186 to R192, R298 to R309, R321): node layout tables, decks, walks, calls, cuts and
deals. -/

namespace Sys2Proof.Machine

/-! ### Node layout tables (R298) -/

structure NodeTab where
  nsize : Nat
  cntoff : Nat
  cntw : Nat
  test : Nat
  ptroff : Nat
  ptrstr : Nat
  vnp : Nat
  vlv : Nat
  vcm : Nat
  vax : Nat
  vlo : Nat
  keys : List Nat
  enter : Nat
  leave : Nat
  prune : Nat
  deriving DecidableEq, Repr

def nodeTab (b : List Byte) : NodeTab :=
  { nsize := recField b 0 2, cntoff := recField b 2 2, cntw := recField b 4 1, test := recField b 5 1,
    ptroff := recField b 6 2, ptrstr := recField b 8 2, vnp := recField b 0xA 1, vlv := recField b 0xB 1,
    vcm := recField b 0xC 1, vax := recField b 0xD 1, vlo := recField b 0xE 1,
    keys := (List.range 4).map fun k => recField b (0x10 + 4 * k) 4,
    enter := recField b 0x20 8, leave := recField b 0x28 8, prune := recField b 0x30 8 }

def keyType (d : Nat) : Nat := bitsOf d 16 8
def keyOff (d : Nat) : Nat := d % 2 ^ 16

/-- The enabled keys: index and descriptor. -/
def NodeTab.enabled (t : NodeTab) : List (Nat × Nat) :=
  (t.keys.zipIdx.filter fun e => keyType e.1 ≠ 0).map fun e => (e.2, e.1)

/-- The highest register that the bounds use. -/
def NodeTab.boundTop (t : NodeTab) : Nat := t.enabled.foldl (fun m e => max m (t.vlo + 2 * e.1 + 1)) 0

def routineOk (pc : Nat) : Bool := pc % 32 == 0 && decide (pc < 2 ^ 56)

/-- Every check of the layout; those of a key descriptor hold of a disabled one too. -/
def tableValid (b : List Byte) : Bool :=
  let t := nodeTab b
  t.nsize % 8 == 0 && decide (8 ≤ t.nsize) && decide (t.nsize ≤ 4096) && (t.cntw == 1 || t.cntw == 2 || t.cntw == 4) &&
  decide (t.cntoff + t.cntw ≤ t.nsize) && decide (t.test ≤ 2) && t.ptroff % 8 == 0 && t.ptrstr % 8 == 0 &&
  decide (8 ≤ t.ptrstr) && decide (t.ptrstr ≤ 4096) && t.vnp % 2 == 0 && decide (t.vnp ≤ 190) && decide (t.vlv ≤ 191) &&
  decide (t.vcm ≤ 191) && decide (t.vax ≤ 191) && recField b 0xF 1 == 0 && recField b 0x38 8 == 0 &&
  (t.keys.all fun d => d / 2 ^ 24 == 0 && decide (keyType d ≤ 3) && keyOff d % 4 == 0 && decide (keyOff d + 4 ≤ t.nsize)) &&
  routineOk t.enter && routineOk t.leave && routineOk t.prune &&
  decide [t.vnp, t.vnp + 1, t.vlv, t.vcm, t.vax].Nodup &&
  (t.test == 0 || (!t.enabled.isEmpty && decide (t.boundTop ≤ 191)))

/-- The highest register that a table names: it must lie below ALLOT when TRAV issues. -/
def NodeTab.top (t : NodeTab) : Nat :=
  max (max (t.vnp + 1) (max t.vlv (max t.vcm t.vax))) (if t.test = 0 then 0 else t.boundTop)

/-! ### Deck entries (R301) -/

abbrev Entry := BitVec 128

def entryOf (node : DWord) (level : Byte) (cmask aux : Word) : Entry := aux ++ cmask ++ level ++ node.extractLsb' 0 56
def entryNode (e : Entry) : DWord := (e.extractLsb' 0 56).zeroExtend 64
def entryLevel (e : Entry) : Byte := e.extractLsb' 56 8
def entryMask (e : Entry) : Word := e.extractLsb' 64 32
def entryAux (e : Entry) : Word := e.extractLsb' 96 32

def Deck.fresh : Deck := { low := 0, top := 0, spill := 0 }
def Handle.deckOf (h : Handle) (l : Nat) : Deck := tget Deck.fresh h.deck l
def Handle.setDeck (h : Handle) (l : Nat) (d : Deck) : Handle := { h with deck := tset Deck.fresh h.deck l d }

/-- Where entry j of lane l lies in the row of the handle (R302). -/
def rowByte (l j : Nat) : Nat := 1024 * l + 16 * (j % 64)
def Handle.entry (h : Handle) (l j : Nat) : Entry := BitVec.ofNat 128 (bytesToNat (h.read (rowByte l j) 16))
def Handle.setEntry (h : Handle) (l j : Nat) (e : Entry) : Handle := h.write (rowByte l j) (natToBytes 16 e.toNat)
/-- Where entry j of lane l lies in the spill segment. -/
def spillByte (base : DWord) (l j : Nat) : Nat := base.toNat + 65536 * l + 16 * j

/-- A deck handle's shape (R187). -/
def deckShape (h : Handle) : Bool := !h.level1 && h.rows == 64 && h.rowBytes == 1024

/-- The deck handle of an instruction; none where it raises 0x0B2 (R187, R189, R306). (log 38, DEDUCED) -/
def deckHandle (s : State) (w : Warp) (h : Nat) : Option Handle :=
  match handleOf s w h with
  | none => none
  | some q =>
    if deckShape q && s.walks.all (fun e => e.2.handle != q.gen || e.2.warp == s.cur) then some q else none

/-! ### Walks -/

def Walk.who (x : Walk) : Who := { ctx := x.ctx, part := x.part, level := x.level }
def State.setWalk (s : State) (id : Nat) (x : Walk) : State := { s with walks := tput s.walks id x }
def State.modWalk (s : State) (id : Nat) (f : Walk → Walk) : State :=
  match tfind s.walks id with
  | some x => s.setWalk id (f x)
  | none => s

/-- A lane's walk ends: done, or stopped with a cause (R303, R309). Its lane-traversal is free again. -/
def State.endLane (s : State) (id l : Nat) (err : Option Nat) : State :=
  match tfind s.walks id with
  | none => s
  | some x =>
    let errors := match err with
      | some c => tput x.errors l c
      | none => x.errors
    let x := { x with walking := x.walking &&& ~~~laneBit l, held := terase x.held l, pend := terase x.pend l,
                      seed := terase x.seed l, errors := errors }
    (s.setWalk id x).modCluster x.cluster fun c => { c with walkLanes := c.walkLanes - 1 }

/-- The walk of warp g, at its present level, that has lane l in a call. -/
def callOf (s : State) (g : Nat) (w : Warp) (l : Nat) : Option Nat :=
  (s.walks.find? fun e => e.2.warp == g && e.2.level == w.level && e.2.calling.getLsbD l).map (·.1)

/-- The group runs a routine (R188). -/
def inRoutine (s : State) (g : Nat) (w : Warp) : Bool :=
  s.walks.any fun e => e.2.warp == g && e.2.level == w.level && e.2.calling &&& w.r.group.mask != 0

/-- Lanes of warp g that are traversing. -/
def traversing (s : State) (g : Nat) : Lanes :=
  s.walks.foldl (fun m e => if e.2.warp = g then m ||| e.2.walking ||| e.2.calling else m) 0

/-! ### Pushing, spilling, reading back (R302) -/

/-- The next steps of the part are these. -/
def State.first (s : State) (is : List Instr) : State := { s with agenda := is ++ s.agenda }

/-- Put entry e on top of a lane's deck. -/
def State.placeEntry (s : State) (team gen l : Nat) (e : Entry) : State :=
  s.modHandle team gen fun h =>
    let d := h.deckOf l
    (h.setEntry l d.top e).setDeck l { d with top := d.top + 1 }

/-- An engine may write these pieces now: they hold no byte of a store that is still on its way to its home, which the engine's write
would not come after (R257, R302), and no copy operation owns a line of them (R244). -/
def piecesFree (s : State) (cl : Nat) (ps : List (Nat × Nat)) : Bool :=
  ps.all fun e => (List.range e.2).all fun i =>
    (bufferByte s cl (e.1 + i)).isNone && (isWindow e.1 || (dirOf s (lineOf (e.1 + i))).owner.isNone)

/-- An engine may write the bytes of an address now, or meets a fault there. -/
def spillFree (s : State) (cl : Nat) (who : Who) (va n : Nat) : Bool :=
  match (xlateRange cl who .write s va n).2 with
  | .error _ => true
  | .ok ps => piecesFree s cl ps

/-- The 16 lowest entries of a lane's deck may be spilled now, in a calendar slot of the walk's partition (R291). -/
def Walk.spillFree (s : State) (x : Walk) (l : Nat) (d : Deck) : Bool :=
  !writesShut s x.part && Machine.spillFree s x.cluster x.who (spillByte x.spill l d.low) 256

/-- Push entries on a walking lane's deck, the first of the list first. A push that finds 64 entries on chip waits for
the spill, which comes next; one beyond 4,160 entries stops the lane (R187, R303). -/
def State.pushAll (id l : Nat) : List Entry → State → State
  | [], s => s.modWalk id fun x => { x with pend := terase x.pend l }
  | e :: t, s =>
    match tfind s.walks id with
    | none => s
    | some x =>
      match findHandle s x.team x.handle with
      | none => s
      | some h =>
        let d := h.deckOf l
        if 4160 ≤ d.top then s.endLane id l (some 0x0B5)
        else if d.top - d.low < 64 then State.pushAll id l t (s.placeEntry x.team x.handle l e)
        else
          let s := s.modWalk id fun x => { x with pend := tput x.pend l (e :: t) }
          if x.spillFree s l d then s.first [.deckSpill id l, .traversalPop id l] else s

/-- Push entries on a walking lane's deck, after those that wait for a spill. -/
def State.pushOn (id l : Nat) (es : List Entry) (s : State) : State :=
  match (tfind s.walks id).bind fun x => tfind x.pend l with
  | some old => s.modWalk id fun x => { x with pend := tput x.pend l (old ++ es) }
  | none => State.pushAll id l es s

/-- Push entries on lane l's deck of warp g: part of the lane's walk, or else on chip only; the lane where the deck is full outside a walk,
to report (R189). -/
def State.pushLane (s : State) (g team gen l : Nat) (es : List Entry) : State × Lanes :=
  match s.walks.find? fun x => x.2.warp == g && x.2.handle == gen && x.2.walking.getLsbD l with
  | some (id, _) => (State.pushOn id l es s, 0)
  | none => es.foldl (fun (r : State × Lanes) e =>
    match findHandle r.1 team gen with
    | none => r
    | some h =>
      let d := h.deckOf l
      if d.top - d.low < 64 then (r.1.placeEntry team gen l e, r.2) else (r.1, laneBit l)) (s, 0)

/-- Push the entries of each lane of the list; the lanes to report. -/
def State.pushLanes (s : State) (g team gen : Nat) (es : Table (List Entry)) : State × Lanes :=
  es.foldl (fun (r : State × Lanes) e =>
    let q := r.1.pushLane g team gen e.1 e.2
    (q.1, r.2 ||| q.2)) (s, 0)

/-- Lanes whose decks are full outside a walk report 0x0B5 (R189). -/
def State.reportFull (s : State) (g : Nat) (pc syl : DWord) (m : Lanes) : State :=
  if m = 0 then s else { s.deferFault g s.nextId 0x0B5 pc syl m 0 with nextId := s.nextId + 1 }

/-- Entries push themselves in the lanes whose decks are as they must find them; the others wait. -/
def State.pushOrWait (s : State) (q : DeckPush) : State :=
  let waits := fun (e : Nat × List Entry) => deckWaits s q.team q.handle s.nextId e.1
  let r := s.pushLanes q.warp q.team q.handle (q.entries.filter fun e => !waits e)
  let s := r.1.reportFull q.warp q.pc q.syl r.2
  match q.entries.filter waits with
  | [] => s
  | es => { s with pushes := tput s.pushes s.nextId { q with entries := es }, nextId := s.nextId + 1 }

/-- Entries that have waited push themselves, as soon as they may. -/
def State.runPush (s : State) (id : Nat) : State :=
  match tfind s.pushes id with
  | none => s
  | some q =>
    let waits := fun (e : Nat × List Entry) => deckWaits s q.team q.handle id e.1
    let left := q.entries.filter waits
    let s := { s with pushes := if left.isEmpty then terase s.pushes id else tput s.pushes id { q with entries := left } }
    let r := s.pushLanes q.warp q.team q.handle (q.entries.filter fun e => !waits e)
    r.1.reportFull q.warp q.pc q.syl r.2

/-- Write the 16 lowest entries on chip to the spill segment, or stop the lane; it is a write of the walk's operation (R260). -/
def State.spillOut (s : State) (id l : Nat) (x : Walk) (h : Handle) : State :=
  let d := h.deckOf l
  let bs := (List.range 16).flatMap fun i => natToBytes 16 (h.entry l (d.low + i)).toNat
  match engineWriteVa x.cluster x.who (x.warp, x.flag) id s (spillByte x.spill l d.low) 256 (sparseOf bs) with
  | (s, none) => s.modHandle x.team x.handle fun h => h.setDeck l { d with low := d.low + 16 }
  | (s, some _) => s.endLane id l (some 0x0B6)

/-- Read up to 16 entries back from the spill segment, or stop the lane. -/
def State.readBack (s : State) (id l : Nat) (x : Walk) (h : Handle) : State :=
  let d := h.deckOf l
  let k := min 16 d.low
  match readRecord x.cluster x.who s (spillByte x.spill l (d.low - k)) (16 * k) with
  | (s, .ok bs) =>
    let put := fun (h : Handle) (i : Nat) => h.setEntry l (d.low - k + i) (BitVec.ofNat 128 (recField bs (16 * i) 16))
    s.modHandle x.team x.handle fun h => ((List.range k).foldl put h).setDeck l { d with low := d.low - k }
  | (s, .error _) => s.endLane id l (some 0x0B6)

/-- DECK_SPILL (R302): the lane waits to push on 64 entries, or has none on chip while spilled ones remain. The deck of a saved team
stays as it is (R309). -/
def State.deckSpill (s : State) (id l : Nat) : State :=
  match tfind s.walks id with
  | none => s
  | some x =>
    match findHandle s x.team x.handle with
    | none => s
    | some h =>
      let d := h.deckOf l
      if !x.walking.getLsbD l || (tfind s.warps x.warp).isNone || !slotOpen s x.part then s
      else if (tfind x.pend l).isSome && d.top - d.low == 64 then (if x.spillFree s l d then s.spillOut id l x h else s)
      else if d.top == d.low && d.low != 0 then s.readBack id l x h
      else s

/-! ### Nodes (R299, R300) -/

structure NodeRead where
  kids : List DWord
  present : Word
  bytes : List Byte

/-- Read a node; none is a node error. -/
def readNode (s : State) (x : Walk) (t : NodeTab) (va : Nat) : State × Option NodeRead :=
  if va % 8 ≠ 0 then (s, none)
  else
    match readRecord x.cluster x.who s va t.nsize with
    | (s, .error _) => (s, none)
    | (s, .ok b) =>
      let n := recField b t.cntoff t.cntw
      if 32 < n ∨ (1 ≤ n ∧ t.nsize < t.ptroff + (n - 1) * t.ptrstr + 8) then (s, none)
      else
        let kids := (List.range n).map fun i => BitVec.ofNat 64 (recField b (t.ptroff + i * t.ptrstr) 8 % 2 ^ 56)
        let present := kids.zipIdx.foldl (fun (m : Nat) e => if e.1 = 0 then m else m + 2 ^ e.2) 0
        (s, some { kids := kids, present := BitVec.ofNat 32 present, bytes := b })

/-- A key lies within its bounds. -/
def keyWithin (ty : Nat) (lo key hi : Word) : Bool :=
  if ty = 3 then fpCond 3 (fp32.value lo.toNat) (fp32.value key.toNat) &&
    fpCond 3 (fp32.value key.toNat) (fp32.value hi.toNat)
  else
    let un := ty == 2
    decide (sxInt un lo ≤ sxInt un key) && decide (sxInt un key ≤ sxInt un hi)

/-- The built-in test of a lane (R300). -/
def builtInTest (r : Regs) (t : NodeTab) (b : List Byte) (l : Nat) : Bool :=
  let res := t.enabled.map fun e =>
    keyWithin (keyType e.2) (r.readV (t.vlo + 2 * e.1) l) (BitVec.ofNat 32 (recField b (keyOff e.2) 4))
      (r.readV (t.vlo + 2 * e.1 + 1) l)
  match t.test with
  | 0 => true
  | 1 => res.all id
  | _ => res.any id

/-- Every write to the lane's bounds has taken place (R300): none is empty, and no handler runs, which would keep results of the
routine from their registers (R336). -/
def boundsFull (w : Warp) (x : Walk) (t : NodeTab) (l : Nat) : Bool :=
  t.test == 0 || (w.level == x.level && t.enabled.all fun e =>
    w.r.pending (vKey (t.vlo + 2 * e.1) l) == 0 && w.r.pending (vKey (t.vlo + 2 * e.1 + 1) l) == 0)

def walkTable (s : State) (x : Walk) : NodeTab :=
  match tfind s.teams x.team with
  | some t => nodeTab (tget [] t.tables x.table)
  | none => nodeTab []

/-- A write of a call's registers: it is there before the call's first bundle (R304). -/
def Regs.putCall (r : Regs) (id n l : Nat) (v : Word) : Regs :=
  if n < r.allot then ((r.fill (vKey n l)).outrank (.v n) (laneBit l) id).writeV n l v else r

/-- The descent of m from a held entry (R303): the parent goes back open and the children follow, the highest first. -/
def descend (q : Held) (m : Word) (aux : Word) : List Entry :=
  entryOf q.node q.level m q.aux ::
    ((List.range 32).reverse.filter fun i => m.getLsbD i).map fun i =>
      entryOf (q.kids.getD i 0) (if q.level = 0xFF then 0xFF else q.level + 1) 0 aux

/-! ### TRAVERSAL_POP (R187, R303) -/

/-- Load a segment record onto the lane's deck (R187). -/
def State.loadSeed (s : State) (id l : Nat) (x : Walk) (va : DWord) : State :=
  match readRecord x.cluster x.who s va.toNat 4 with
  | (s, .error _) => s.endLane id l (some 0x0B6)
  | (s, .ok b) =>
    let n := bytesToNat b
    if 4160 < n then s.endLane id l (some 0x0B5)
    else
      match readRecord x.cluster x.who s (va.toNat + 0x40) (16 * n) with
      | (s, .error _) => s.endLane id l (some 0x0B6)
      | (s, .ok bs) =>
        let es := ((List.range n).map fun i =>
          let e : Entry := BitVec.ofNat 128 (recField bs (16 * i) 16)
          entryOf (entryNode e) (entryLevel e) 0 (entryAux e)).reverse
        State.pushAll id l es (s.modWalk id fun x => { x with seed := terase x.seed l })

/-- Hold an entry for a call. -/
def State.holdEntry (s : State) (id l : Nat) (q : Held) : State := s.modWalk id fun x => { x with held := tput x.held l q }

/-- Visit entry e of lane l, now popped. -/
def State.visit (s : State) (id l : Nat) (x : Walk) (e : Entry) : State :=
  let t := walkTable s x
  match tfind s.warps x.warp with
  | none => s
  | some w =>
    match readNode s x t (entryNode e).toNat with
    | (s, none) => s.endLane id l (some 0x0B6)
    | (s, some n) =>
      let q : Held := { node := entryNode e, level := entryLevel e, cmask := entryMask e, aux := entryAux e, call := 0,
                        mask := n.present, kids := n.kids }
      if builtInTest (w.r.settle (w.r.due + 1024)) t n.bytes l then
        (if t.enter ≠ 0 then s.holdEntry id l q
         else if n.present = 0 then s
         else State.pushAll id l (descend q n.present q.aux) s)
      else if t.prune ≠ 0 then s.holdEntry id l { q with call := 2 }
      else s

/-- Take the top entry of lane l's deck. -/
def State.popEntry (s : State) (id l : Nat) (x : Walk) (h : Handle) : State :=
  let d := h.deckOf l
  let e := h.entry l (d.top - 1)
  let d' := { d with top := d.top - 1 }
  let s := s.modHandle x.team x.handle fun h => h.setDeck l d'
  let s := if d'.top = d.low ∧ d.low ≠ 0 then s.readBack id l x (h.setDeck l d') else s
  let live := match tfind s.walks id with
    | some y => y.walking.getLsbD l
    | none => false
  if !live then s
  else if entryMask e ≠ 0 then
    (if (walkTable s x).leave ≠ 0 then
      s.holdEntry id l { node := entryNode e, level := entryLevel e, cmask := entryMask e, aux := entryAux e, call := 1,
                         mask := entryMask e, kids := [] }
     else s)
  else s.visit id l x e

/-- TRAVERSAL_POP: one step of lane l's walk, in a calendar slot of its partition (R291), once the zero fill of the deck is over (R254) and
after the cuts and pushes of its deck (R307, R321). A lane that waits for a routine or is inside one does not pop (R321). -/
def State.traversalPop (s : State) (id l : Nat) : State :=
  match tfind s.walks id with
  | none => s
  | some x =>
    match findHandle s x.team x.handle, tfind s.warps x.warp with
    | some h, some w =>
      if !x.walking.getLsbD l then s
      else
        match tfind x.pend l with
        | some es => State.pushAll id l es s
        | none =>
          if x.calling.getLsbD l || (tfind x.held l).isSome || deckWaits s x.team x.handle s.nextId l || !slotOpen s x.part then s
          else
            match tfind x.seed l with
            | some va => s.loadSeed id l x va
            | none =>
              let d := h.deckOf l
              if d.top = 0 then s.endLane id l none
              else if d.top = d.low then s.first [.deckSpill id l, .traversalPop id l]
              else if boundsFull w x (walkTable s x) l then s.popEntry id l x h
              else s
    | _, _ => s

/-! ### Calls (R304) -/

def callEntry (t : NodeTab) (c : Nat) : Nat := if c = 0 then t.enter else if c = 1 then t.leave else t.prune

/-- Lanes of the walk that wait for a routine. -/
def Walk.waiting (x : Walk) : Lanes := x.walking &&& ~~~x.calling &&& maskOf fun l => (tfind x.held l).isSome

/-- The wait is on flag n. -/
def Wait.onFlag (n : Nat) : Wait → Bool
  | .flag m => m.getLsbD n
  | .rest k => k == n
  | _ => false

/-- The group that lane l waits in on flag n. -/
def flagGroup (w : Warp) (n l : Nat) : Option Nat :=
  w.r.groups.findIdx? fun g => g.mask.getLsbD l && g.wait.onFlag n

/-- The call that can be made now: the group of the lowest lane that waits for a routine, the routine, and every lane that waits for
the same one in a group that waits on the walk's flag. A warp that is stopped for a save gets none (R309), nor one whose registers could go
back to a checkpoint (R346; log 20, DEDUCED). -/
def nextCall (s : State) (x : Walk) : Option (Nat × Nat × Lanes) :=
  match tfind s.warps x.warp with
  | none => none
  | some w =>
    if x.calling != 0 || x.waiting == 0 || w.stop || !w.checkpoint.isEmpty || w.level != x.level || decide (16 ≤ w.r.groups.length) then none
    else
      let l := lowLane x.waiting
      match flagGroup w x.flag l, tfind x.held l with
      | some i, some q =>
        let same := x.waiting &&& maskOf fun k =>
          match tfind x.held k with
          | some p => p.call == q.call && (flagGroup w x.flag k).isSome
          | none => false
        some (i, q.call, same)
      | _, _ => none

/-- Lanes m of a group leave it for a call. -/
def Group.lend (g : Group) (m : Lanes) : Group := { g with mask := g.mask &&& ~~~m, away := g.away ||| (g.mask &&& m) }

/-- Lane l comes back to the group that it left. -/
def Group.takeBack (g : Group) (l : Nat) : Group :=
  if g.away.getLsbD l then { g with mask := g.mask ||| laneBit l, away := g.away &&& ~~~laneBit l } else g

/-- ROUTINE_CALL (R188, R304): the lanes leave their groups and form one at the routine, with the entry in the registers
that the table names. -/
def State.routineCall (s : State) (id : Nat) : State :=
  match tfind s.walks id with
  | none => s
  | some x =>
    match nextCall s x, tfind s.warps x.warp with
    | some (i, c, m), some w =>
      let t := walkTable s x
      let n := s.nextId
      let put := fun (r : Regs) (l : Nat) =>
        match tfind x.held l with
        | none => r
        | some q =>
          ((((r.putCall n t.vnp l (lowWord q.node)).putCall n (t.vnp + 1) l (highWord q.node)).putCall n t.vlv l
            (q.level.zeroExtend 32)).putCall n t.vcm l q.mask).putCall n t.vax l q.aux
      let r := (laneList m).foldl put w.r
      let call : Group := { mask := m, pc := BitVec.ofNat 64 (callEntry t c), wait := .ready, pending := none }
      let left := r.groups.map fun g => g.lend m
      let gs := left.take (i + 1) ++ [call] ++ left.drop (i + 1)
      let r := { r with groups := gs, cur := if i < r.cur then r.cur + 1 else r.cur }
      (s.setWarp x.warp { w with r := r }).setWalk id { x with calling := m }
    | _, _ => s

/-- TRET for lane l of the current warp's walk (R188): the lane goes back to its group and the verdict is handled. -/
def State.returnLane (s : State) (l : Nat) (verdict : Word) (aux : Option Word) : State :=
  match s.curWarp with
  | none => s
  | some w =>
    match callOf s s.cur w l with
    | none => s
    | some id =>
      match tfind s.walks id with
      | none => s
      | some x =>
        let b := laneBit l
        let own := w.r.group
        let r := w.r.setGroup { own with mask := own.mask &&& ~~~b }
        let r := { r with groups := r.groups.map fun g => g.takeBack l }
        let s := (s.setWarp s.cur { w with r := r }).setWalk id
          { x with calling := x.calling &&& ~~~b, held := terase x.held l }
        if !x.walking.getLsbD l then s
        else
          match tfind x.held l with
          | none => s
          | some q =>
            if q.call = 0 then
              (if verdict &&& q.mask = 0 then s
               else s.pushOrWait { warp := x.warp, team := x.team, handle := x.handle, pc := 0, syl := 0,
                                   entries := [(l, descend q (verdict &&& q.mask) (aux.getD q.aux))] })
            else if verdict.getLsbD 0 then s.endLane id l none
            else s

/-- WALK_COMPLETE (R187): every lane has finished or stopped and no call is left. -/
def State.completeWalk (s : State) (id : Nat) : State :=
  match tfind s.walks id with
  | none => s
  | some x =>
    if x.walking != 0 || x.calling != 0 then s
    else
      let s := { s with walks := terase s.walks id }
      match x.errors with
      | [] => s.finishFlag x.warp x.flag 1 0
      | e :: t => s.finishFlag x.warp x.flag 2 (t.foldl (fun m q => min m q.2) e.2 - 0x0A0)

/-! ### DCUT (R190, R302, R307) -/

/-- All the entries of a lane's deck from the bottom; the first fault of a spill read otherwise. -/
def deckEntries (s : State) (cl : Nat) (who : Who) (h : Handle) (spill : DWord) (l : Nat) : State × Except (Nat × Nat) (List Entry) :=
  let d := h.deckOf l
  let chip := (List.range (d.top - d.low)).map fun i => h.entry l (d.low + i)
  if d.low = 0 then (s, .ok chip)
  else
    match readRecord cl who s (spillByte spill l 0) (16 * d.low) with
    | (s, .ok bs) => (s, .ok (((List.range d.low).map fun i => BitVec.ofNat 128 (recField bs (16 * i) 16)) ++ chip))
    | (s, .error e) => (s, .error e)

def cutTakes (k : Nat) (e : Entry) : Bool := entryMask e == 0 && decide ((entryLevel e).toNat ≤ k)

/-- The cut entries in ascending level, within a level in pop order. -/
def cutOrder (k : Nat) (es : List Entry) : List Entry :=
  let sel := (es.filter (cutTakes k)).reverse
  (List.range 256).flatMap fun v => sel.filter fun e => (entryLevel e).toNat == v

/-- The segment record. -/
def cutRecord (table k origin l time : Nat) (cut : List Entry) : List Byte :=
  natToBytes 4 cut.length ++ natToBytes 1 table ++ natToBytes 1 (min k 255) ++ natToBytes 2 0 ++ natToBytes 4 origin ++
  natToBytes 1 l ++ natToBytes 3 0 ++ natToBytes 8 time ++ natToBytes 40 0 ++
  cut.flatMap fun e => natToBytes 16 e.toNat

/-- The deck after a cut: the kept entries, of which the lowest `low` lie in the spill segment. -/
def Handle.rebuild (h : Handle) (l low : Nat) (kept : List Entry) : Handle :=
  let put := fun (h : Handle) (e : Entry × Nat) => if low ≤ e.2 then h.setEntry l e.2 e.1 else h
  (kept.zipIdx.foldl put h).setDeck l { h.deckOf l with low := low, top := kept.length }

def Cut.who (q : Cut) : Who := { ctx := q.ctx, part := q.part, level := q.level }

structure CutRun where
  s : State
  counts : Table Word
  records : Table (List (Nat × Nat) × List Byte)
  bad : Lanes
  cause : Nat
  va : Nat

def CutRun.fail (c : CutRun) (l cause va : Nat) : CutRun :=
  { c with bad := c.bad ||| laneBit l, va := if c.bad = 0 then va else c.va,
           cause := if c.bad = 0 ∨ causeRank cause < causeRank c.cause then cause else c.cause }

/-- A spill access of a cut that faults stops a walking lane, which cuts nothing; in another lane it is a deferred fault. (log 38, DEDUCED) -/
def CutRun.spillFault (c : CutRun) (q : Cut) (l reason kind va : Nat) : CutRun :=
  match c.s.walks.find? fun e => e.2.warp == q.warp && e.2.handle == q.handle && e.2.walking.getLsbD l with
  | some (id, _) => { c with s := c.s.endLane id l (some 0x0B6) }
  | none => c.fail l (0x060 + 4 * reason + kind) va

/-- Cut the deck of one lane. -/
def cutLane (q : Cut) (c : CutRun) (l : Nat) : CutRun :=
  match findHandle c.s q.team q.handle with
  | none => c
  | some h =>
    let d := h.deckOf l
    match deckEntries c.s q.cluster q.who h (tget 0 q.spills l) l with
    | (s, .error e) => { c with s := s }.spillFault q l e.1 0 e.2
    | (s, .ok es) =>
      let k := (tget 0 q.depth l).toNat
      let cut := cutOrder k es
      let kept := es.filter fun e => !cutTakes k e
      let low := ((es.take d.low).filter fun e => !cutTakes k e).length
      match xlateRange q.cluster q.who .write s (tget 0 q.addr l).toNat (64 + 16 * cut.length) with
      | (s, .error e) => { c with s := s }.fail l (0x060 + 4 * e.1 + 1) e.2
      | (s, .ok ps) =>
        let spilled := (kept.take low).flatMap fun e => natToBytes 16 e.toNat
        let r := if low = d.low ∨ low = 0 then (s, none)
          else writeVa q.cluster q.who s (spillByte (tget 0 q.spills l) l 0) (16 * low) (sparseOf spilled)
        match r with
        | (s, some e) => { c with s := s }.spillFault q l e.1 1 e.2
        | (s, none) =>
          let rec_ := cutRecord (tget 0xFF q.tables l) k (identOf q.warp q.part) l (timeOf s (dieOf q.warp)) cut
          { c with s := if cut.isEmpty then s else s.modHandle q.team q.handle fun h => h.rebuild l low kept,
                   counts := tset 0 c.counts l (BitVec.ofNat 32 cut.length), records := tput c.records l (ps, rec_) }

def State.cutLanes (s : State) (q : Cut) (m : Lanes) : CutRun :=
  (laneList m).foldl (cutLane q) { s := s, counts := [], records := [], bad := 0, cause := 0, va := 0 }

/-- The lanes of a deck handle that a cut finds on chip and as it must find them. -/
def chipLanes (s : State) (team gen : Nat) : Lanes := maskOf fun l =>
  !deckWaits s team gen s.nextId l && pendingEntries s gen l == 0 && match findHandle s team gen with
    | some h => (h.deckOf l).low == 0
    | none => true

/-- The spill base of lane l's deck. -/
def spillBase (s : State) (team gen l : Nat) : DWord := ((findHandle s team gen).map fun h => (h.deckOf l).spill).getD 0

/-- Issue of DCUT: where every earlier access of the group's lanes has been performed (R170), in a slot of the partition (R291), decks on
chip are cut now; the others once they may be. -/
def State.issueCut (s : State) (w : Warp) (f : Syl) (gen : Nat) (i : Instr) : State :=
  let act := w.r.active f.g1 f.g2
  let g := s.cur
  let after := afterOf s g w.r.group.mask
  let late := if afterDone s after && slotOpen s w.part then act &&& ~~~chipLanes s w.team gen else act
  let q : Cut := { warp := g, cluster := clusterOf g, team := w.team, handle := gen, todo := late,
                   addr := laneTable 0 act fun l => src64 w s.issue f.e f.a.toNat l,
                   depth := laneTable 0 act fun l => src32 w s.issue f.e f.b.toNat l,
                   records := [], written := false, tables := w.walked, spills := laneTable 0 act (spillBase s w.team gen), pc := s.issue.pc, syl := encode i, level := w.level, ctx := w.ctx, part := w.part,
                   after := after }
  let c := s.cutLanes q (act &&& ~~~late)
  let id := c.s.nextId
  let s := if c.bad = 0 then c.s else
    { c.s.deferFault g id c.cause q.pc q.syl c.bad (BitVec.ofNat 64 c.va) with nextId := id + 1 }
  let s := s.modWarp g fun w => { w with r := w.r.emptyCode id f.d.toNat 1 c.bad }
  if act &&& ~~~c.bad = 0 then s
  else
    { s.issueReply g f.d.toNat 1 (act &&& ~~~c.bad) c.counts false false with
      cuts := tput s.cuts s.nextId { q with records := c.records } }

/-- The engine may read and write for cut id (R170): the calendar slot is its partition's (R291), the decks left are as it must find them,
and it may write its records and spill segments. -/
def cutReady (s : State) (id : Nat) (q : Cut) : Bool :=
  afterDone s q.after && !writesShut s q.part && q.records.all (fun e => piecesFree s q.cluster e.2.1) && (laneList q.todo).all fun l =>
    !deckWaits s q.team q.handle id l && pendingEntries s q.handle l == 0 &&
    match findHandle s q.team q.handle with
    | some h => spillFree s q.cluster q.who (spillByte (tget 0 q.spills l) l 0) (16 * (h.deckOf l).low) &&
        spillFree s q.cluster q.who (tget 0 q.addr l).toNat (64 + 16 * (h.deckOf l).top)
    | none => true

/-- Cut the decks left and write the segment records, in increasing lane order (R6); a lane whose deck stays uncut faults and gets no
count. -/
def State.writeCut (s : State) (id : Nat) (q : Cut) : State :=
  let c := s.cutLanes q q.todo
  let n := c.s.nextId
  let s := if c.bad = 0 then c.s else
    ({ c.s.deferFault q.warp n c.cause q.pc q.syl c.bad (BitVec.ofNat 64 c.va) with nextId := n + 1 }).modWarp q.warp
      fun w => w.renamePend id n c.bad
  let s := (c.records.foldl (fun t e => tput t e.1 e.2) q.records).foldl (fun s e => s.putPieces q.cluster q.who none id e.2.1 (sparseOf e.2.2)) s
  let vals := fun (r : Reply) => c.counts.foldl (fun t e => tput t e.1 e.2) r.vals
  { s with cuts := tput s.cuts id { q with todo := 0, records := [], written := true },
           replies := s.replies.map fun e => if e.1 = id then (e.1, { e.2 with lanes := e.2.lanes &&& ~~~c.bad, vals := vals e.2 }) else e }

/-- A cut goes on: its records are written, and its counts delivered once they are performed at `.dev` (R190, R256). -/
def State.finishCut (s : State) (id : Nat) : State :=
  match tfind s.cuts id with
  | none => s
  | some q =>
    if !q.written && !cutReady s id q then s
    else
      let s := if q.written then s else s.writeCut id q
      if s.posted.any fun e => e.2.op == id && e.2.warp.isNone && !e.2.sent then s
      else
        match tfind s.replies id with
        | some r => { s with cuts := terase s.cuts id }.fillReply id r.vals
        | none => { s with cuts := terase s.cuts id }

/-! ### DDEAL (R191, R276, R396) -/

/-- The record that the issuing warp runs as a task, if it runs one. -/
def Warp.task (w : Warp) : Option DWord := if w.isTask then w.record else none

/-- The fields that a child takes from the issuing warp (R217, R191, R277). -/
def childRecord (s : State) (g : Nat) (w : Warp) (pc frame parent : Nat) (args : List Nat) : State × TaskRec :=
  let aff := match w.task with
    | some r => readField s (clusterOf g) w.who (r.toNat + 0x21) 1
    | none => (s, 0xFF)
  (aff.1, { pc := pc, kind := 0, prio := w.prio, resumed := false, frame := frame, parent := parent, join := 0,
            lnid := w.lnid.toNat, allot := w.r.allot, aff := affinity g aff.2, stage := 0, rd := 0, lat := latWord w.lat,
            args := args })

/-- The join counter of a record has reached its greatest value (R191, R217). -/
def joinFull (s : State) (cl : Nat) (who : Who) (va : Nat) : Bool := (readField s cl who (va + 0x18) 4).2 == 2 ^ 32 - 1

/-- A translation cause of kind 1 for a range that will be written (R396). -/
def writeRaise (s : State) (w : Warp) (va n : Nat) : List TrapInfo :=
  match (xlateRange (clusterOf s.cur) w.who .write s va n).2 with
  | .ok _ => []
  | .error e => [raise1 s.issue.pc (0x061 + 4 * e.1) w.r.group.mask e.2]

/-- The translation of a range that the bundle will write, which its issue has waited for: its page walks count (R236, R396). -/
def State.translated (s : State) (w : Warp) (va n : Nat) : State := (xlateRange (clusterOf s.cur) w.who .write s va n).1

def dealRaises (s : State) (w : Warp) : List TrapInfo :=
  let cl := clusterOf s.cur
  let raise := fun (b : Bool) cause => if b then [raise1 s.issue.pc cause w.r.group.mask 0] else []
  (match cactusFit s cl 64 with
   | none => raise true 0x0C6
   | some a => writeRaise s w a 64) ++
  match w.task with
  | some r => raise (joinFull s cl w.who r.toNat) 0x0C7
  | none => []

/-- Issue of DDEAL: the record is reserved and the parent's counter raised. -/
def State.issueDeal (s : State) (w : Warp) (f : Syl) (i : Instr) : State :=
  let g := s.cur
  let cl := clusterOf g
  let at1 := fun c => (src64 w s.issue f.e c (lowLane w.r.group.mask)).toNat
  match cactusFit s cl 64 with
  | none => s
  | some a =>
    let seg := at1 f.a.toNat
    let parent := match w.task with
      | some r => r.toNat
      | none => 0
    let c := childRecord s g w (at1 f.b.toNat) 0 parent [seg % 2 ^ 32, seg / 2 ^ 32, 0, 0, 0, 0]
    let s := c.1.translated w a 64
    let s := s.cactusTake cl a 64
    let s := match w.task with
      | some r => s.addJoin cl w.who r.toNat
      | none => s
    let q : Deal := { warp := g, cluster := cl, record := BitVec.ofNat 64 a, parent := w.task, seg := BitVec.ofNat 64 seg,
                      body := taskBytes c.2, entry := BitVec.ofNat 64 (at1 f.b.toNat), pc := s.issue.pc, syl := encode i, lanes := w.r.group.mask, team := w.team,
                      level := w.level, ctx := w.ctx, part := w.part, after := afterOf s g w.r.group.mask }
    { s.issueReply g f.d.toNat 1 w.r.group.mask [] false false with deals := tput s.deals s.nextId q }

def Deal.who (q : Deal) : Who := { ctx := q.ctx, part := q.part, level := q.level }

/-- The reservation is returned and the counter lowered. -/
def State.undoDeal (s : State) (q : Deal) : State :=
  let s := s.cactusFree q.part q.record.toNat
  match q.parent with
  | some r => s.subJoin q.cluster q.who r.toNat
  | none => s

/-- A reply that will not come: its registers stay empty until the return from the trap (R164, R318). -/
def State.dropReply (s : State) (id : Nat) : State := { s with replies := terase s.replies id }

/-- The status of a deal: COUNT is read in a calendar slot of its partition (R291), and the record, which it may write by now (R244, R257),
enters the kitty or is given back. -/
def State.finishDeal (s : State) (id : Nat) : State :=
  match tfind s.deals id with
  | none => s
  | some q =>
    if !afterDone s q.after || writesShut s q.part || !spillFree s q.cluster q.who q.record.toNat 64 ||
        decide (512 ≤ (s.cluster q.cluster).kitty.length) then s
    else
      let gone := fun s : State => { s with deals := terase s.deals id }
      match readRecord q.cluster q.who s q.seg.toNat 4 with
      | (s, .error e) =>
        (((gone s).undoDeal q).dropReply id).deferFault q.warp id (0x060 + 4 * e.1) q.pc q.syl q.lanes (BitVec.ofNat 64 e.2)
      | (s, .ok bs) =>
        if bytesToNat bs = 0 then ((gone s).undoDeal q).fillReply id [(0, 1)]
        else
          let s := (writeVa q.cluster q.who (gone s) q.record.toNat 64 q.body).1
          let key := recKey q.ctx q.record.toNat
          let s := (s.pushKitty q.cluster key).fillReply id []
          let s := { s with dealt := tput s.dealt key (q.entry.toNat, true) }
          match q.parent with
          | some _ => s
          | none => { s.modTeam q.team (fun t => { t with tasks := t.tasks + 1 }) with roots := tput s.roots key q.team }

/-! ### TSET (R186) -/

/-- TSET_TABLE_LOADED: the table is read once no walk uses it and R170 is satisfied; a refused one leaves the old. The TSET of a saved
team waits for its restore. -/
def State.loadTable (s : State) (id : Nat) : State :=
  match tfind s.tsets id with
  | none => s
  | some q =>
    match tfind s.warps q.warp with
    | none => if decide (2 ^ 20 ≤ q.warp) && (tfind s.preempts ((q.warp - 2 ^ 20) / 64)).isSome then s else { s with tsets := terase s.tsets id }
    | some w =>
      if !afterDone s q.after || !slotOpen s w.part || s.walks.any (fun e => e.2.team == q.team && e.2.table == q.table) then s
      else
        let free := fun s : State => { s with tsets := terase s.tsets id }.modWarp q.warp fun w =>
          { w with holdEng := if w.holdEng = some id then none else w.holdEng,
                   handlers := w.handlers.map (fun (h : Frame) => if h.holdEng = some id then { h with holdEng := none } else h) }
        match readRecord (clusterOf q.warp) { w.who with level := q.level } s q.addr.toNat 64 with
        | (s, .error e) => (free s).deferFault q.warp id (0x060 + 4 * e.1) q.pc q.syl q.lanes (BitVec.ofNat 64 e.2)
        | (s, .ok b) =>
          if tableValid b then (free s).modTeam q.team fun t => { t with tables := tput t.tables q.table b }
          else (free s).deferFault q.warp id 0x0B1 q.pc q.syl q.lanes q.addr

/-- Issue of TSET. -/
def State.issueTset (s : State) (w : Warp) (f : Syl) (i : Instr) : State :=
  let g := s.cur
  let q : TSet := { warp := g, team := w.team, table := f.d.toNat, addr := BitVec.ofNat 64 (engAddr w s.issue f),
                    pc := s.issue.pc, syl := encode i, lanes := w.r.group.mask, level := w.level, after := afterOf s g w.r.group.mask }
  let id := s.nextId
  { s.modWarp g (fun w => { w with holdEng := some id }) with tsets := tput s.tsets id q, nextId := id + 1 }

/-! ### TRAV and DPUSH at issue -/

/-- Issue of TRAV: the lanes' decks take the table and the spill base, and the walk begins. -/
def State.issueTrav (s : State) (w : Warp) (f : Syl) : State :=
  let act := w.r.active f.g1 f.g2
  let g := s.cur
  match handleOf s w f.b.toNat with
  | none => if act = 0 then ({ s with nextId := s.nextId + 1 }.modWarp g fun w => w.bindFlag f.e.toNat s.nextId).finishFlag g f.e.toNat 1 0 else s
  | some h =>
    let base := BitVec.ofNat 64 (src64 w s.issue f.e f.c.toNat (lowLane w.r.group.mask)).toNat
    let x : Walk := { warp := g, team := w.team, cluster := clusterOf g, table := f.a.toNat, handle := h.gen, spill := base,
                      flag := f.e.toNat, lanes := act, walking := act,
                      seed := if f.op64 then (laneList act).map fun l => (l, src64 w s.issue f.e f.d.toNat l) else [],
                      errors := [], held := [], pend := [], calling := 0, level := w.level, ctx := w.ctx,
                      part := w.part }
    let s := s.modHandle w.team h.gen fun h => (laneList act).foldl (fun h l =>
      h.setDeck l { h.deckOf l with spill := base }) h
    let walked := fun t => (laneList act).foldl (fun t l => tput t l f.a.toNat) t
    let s := { s.modWarp g (fun w => { w.bindFlag f.e.toNat s.nextId with walked := walked w.walked }) with walks := tput s.walks s.nextId x, nextId := s.nextId + 1 }
    s.modCluster (clusterOf g) fun c => { c with walkLanes := c.walkLanes + laneCount act }

/-- Issue of DPUSH: each active lane pushes its entry, or waits for its deck. -/
def State.issuePush (s : State) (w : Warp) (f : Syl) (gen : Nat) (i : Instr) : State :=
  let act := w.r.active f.g1 f.g2
  let entry := fun l => entryOf (src64 w s.issue f.e f.a.toNat l) ((src32 w s.issue f.e f.c.toNat l).extractLsb' 0 8) 0
    (src32 w s.issue f.e f.b.toNat l)
  s.pushOrWait { warp := s.cur, team := w.team, handle := gen, pc := s.issue.pc, syl := encode i,
                 entries := (laneList act).map fun l => (l, [entry l]) }

/-! ### Checks at issue -/

def deckRaise (s : State) (w : Warp) (h : Nat) : List TrapInfo :=
  if (deckHandle s w h).isNone then [raise1 s.issue.pc 0x0B2 w.r.group.mask 0] else []

/-- Causes of the traversal instructions at issue (R171, R186 to R192, R306). TRET with no active lane in a delay bundle raises no 0x0B4
(log 94, DESIGN CHOICE). -/
def travRaises (s : State) (w : Warp) (i : Instr) : List TrapInfo :=
  let g := s.cur
  let pc := s.issue.pc
  let grp := w.r.group.mask
  let raise := fun (b : Bool) cause => if b then [raise1 pc cause grp 0] else []
  match i with
  | .tset f =>
    if w.r.active f.g1 f.g2 = 0 then []
    else
      let a := engAddr w s.issue f
      (if a % 64 ≠ 0 then [raise1 pc 0x080 (w.r.active f.g1 f.g2) a] else []) ++
      raise (s.walks.any fun e => e.2.warp == g && e.2.level == w.level && e.2.table == f.d.toNat && e.2.calling &&& grp != 0)
        0x0B3
  | .trav f =>
    let act := w.r.active f.g1 f.g2
    let tab := match tfind s.teams w.team with
      | some t => tfind t.tables f.a.toNat
      | none => none
    let h := match handleOf s w f.b.toNat with
      | some q => if deckShape q then some q else none
      | none => none
    let base := (src64 w s.issue f.e f.c.toNat (lowLane grp)).toNat
    let busy := act &&& traversing s g
    let addr := fun l => (src64 w s.issue f.e f.d.toNat l).toNat
    let full := act &&& maskOf fun l => match h with
      | some q => deckCount s w.team q.gen l != 0 || s.pushes.any fun e => e.2.handle == q.gen && (tfind e.2.entries l).isSome
      | none => false
    raise (w.flag f.e.toNat).bound 0x0B0 ++ raise (inRoutine s g w) 0x0B3 ++
    (if act = 0 then []
     else
      raise (match tab with
        | some b => decide (w.r.allot ≤ (nodeTab b).top)
        | none => true) 0x0B1 ++
      raise (h.isNone || base % 4096 != 0) 0x0B2 ++
      (if busy = 0 then [] else [raise1 pc 0x0B7 busy 0]) ++
      (if f.op64 then
        raise (full != 0) 0x0B2 ++ raiseLanes pc 0x0B7 false act (act &&& maskOf fun l => addr l % 64 != 0) addr
       else []))
  | .tret f =>
    let act := w.r.active f.g1 f.g2
    if act = 0 then []
    else raise ((act &&& maskOf fun l => (callOf s g w l).isNone) != 0 || w.r.group.pending.isSome) 0x0B4
  | .dpush f => if w.r.active f.g1 f.g2 = 0 then [] else deckRaise s w f.d.toNat
  | .dcut f =>
    let act := w.r.active f.g1 f.g2
    let addr := fun l => (src64 w s.issue f.e f.a.toNat l).toNat
    if act = 0 then []
    else deckRaise s w f.c.toNat ++ raiseLanes pc 0x0B7 false act (act &&& maskOf fun l => addr l % 64 != 0) addr
  | .ddepth f => if w.r.active f.g1 f.g2 = 0 then [] else deckRaise s w f.a.toNat
  | .ddeal f =>
    if w.r.active f.g1 f.g2 = 0 then [] else raise (engAddr w s.issue f % 64 != 0) 0x0B7 ++ dealRaises s w
  | _ => []

end Sys2Proof.Machine
end

