-- ==== Sys2Proof/Machine/Claims.lean ====
section
/-! DEFINITION. The claim store (R193 to R196, R310 to R321, R394). -/

namespace Sys2Proof.Machine

/-! ### Naming -/

/-- The group of a key, a member or a proposal, packed with its number. -/
def groupKey (g k : Nat) : Nat := g * 2 ^ 32 + k
def memberKey (g m : Nat) : Nat := g * 4096 + m

/-- Home die of a key (R313). -/
def keyHome (g : Nat) (k : Nat) : Nat := (k % 4) ^^^ (g % 4)

/-- CLXB (R312). -/
def clxb (s : State) : Nat := (sregGet s (sregKey 0x162 0) 8000).toNat

/-- Window n of a partition leads to another device. -/
def leadsTo (s : State) (part dev n : Nat) : Bool :=
  let w := s.window n
  ownsWindow s part n && w.valid && !w.host && w.target == dev

/-- A valid window of a partition names another device (R394). -/
def deviceNamed (s : State) (part dev : Nat) : Bool := (List.range 64).any (leadsTo s part dev)

/-- Another device is reachable through a partition's windows (R310): one of them is up, and the plane to the device too. -/
def deviceReached (s : State) (part dev : Nat) : Bool :=
  !s.unreachable.contains dev && (List.range 64).any fun n => leadsTo s part dev n && !(s.window n).lost

/-- What a group word names (R394). -/
inductive GroupName where
  | invalid
  | here (g : Nat)
  | remote (word : Nat)
  deriving DecidableEq, Repr

def groupName (s : State) (part : Nat) (word : Word) : GroupName :=
  let w := word.toNat
  if bitsOf w 12 4 != 0 || bitsOf w 24 7 != 0 then .invalid
  else if w.testBit 31 && bitsOf w 16 8 != Config.deviceNumber.toNat then
    (if deviceNamed s part (bitsOf w 16 8) then .remote w else .invalid)
  else .here (w % 4096)

/-- The identity of the group that has a number now; 0 for none. -/
def groupId (s : State) (n : Nat) : Nat := ((tfind s.cgroups n).map fun q => q.id).getD 0

/-- The member number under which warp g acts in group n of this device: its slot's, or this device's (R311, R319). -/
def memberOf (s : State) (g part n : Nat) : Option Nat :=
  match tfind s.cgroups n with
  | none => none
  | some q =>
    if q.part ≠ part then none
    else if q.cross then (q.members.zipIdx.find? fun e => e.1 == Config.deviceNumber.toNat).map (·.2)
    else (q.bound.find? fun e => e.2 == g).map (·.1)

/-- The member number of another device. -/
def deviceMember (s : State) (dev n : Nat) : Option Nat :=
  match tfind s.cgroups n with
  | none => none
  | some q => if q.cross then (q.members.zipIdx.find? fun e => e.1 == dev).map (·.2) else none

/-- A word that no rule gives: a free value. (log 37, DEDUCED) -/
def freeWord (s : State) (i : Nat) : Nat := (Config.freeValue (s.free + i)).toNat % 2 ^ 32
def State.spend (s : State) (n : Nat) : State := { s with free := s.free + n }

/-! ### Proposals -/

def State.send (s : State) (m : ClaimMsg) : State := { s with cmsgs := tput s.cmsgs s.nextId m, nextId := s.nextId + 1 }

/-- The result travels to the claimant (R316). Results: 0 won, 1 lost, else an engine cause. -/
def State.sendOutcome (s : State) (c : Claimant) (result : Nat) : State :=
  match c with
  | .warp _ _ => s.send (.outcome c result)
  | .device d tag => { s with outbox := s.outbox ++ [.claimResult d tag result] }

def State.closeProposal (s : State) (id : Nat) (p : Proposal) (st result : Nat) : State :=
  { s with proposals := tput s.proposals id { p with state := st } }.sendOutcome p.claimant result

/-- The open proposal of a key. -/
def openOn (s : State) (g : Nat) (k : Word) : Option (Nat × Proposal) :=
  s.proposals.find? fun e => e.2.group == g && e.2.key == k && e.2.state == 0

def groupUnreachable (s : State) (q : ClaimGroup) : Bool := q.cross && q.members.any fun d => s.unreachable.contains d

/-- The scope at which a claim of a group releases (R194). -/
def ClaimGroup.scope (q : ClaimGroup) : Nat := if q.cross then 4 else 3

/-- The proposal's window has ended at its home. -/
def windowEnded (s : State) (q : ClaimGroup) (p : Proposal) : Bool :=
  decide (p.ta + q.window ≤ timeOf s (keyHome p.group p.key.toNat))

/-- The claimant's flag carries what the commit comes after, for the warp that consumes it (R268). -/
def State.giveWon (s : State) (c : Claimant) (cover : List (Nat × Lanes)) : State :=
  match c with
  | .warp g n => if cover.isEmpty then s else s.modWarp g fun w => w.setFlag n { w.flag n with won := cover }
  | .device _ _ => s

/-- CLAIM_WINDOW_END (R316): the proposal commits, once what the claim covers has been performed (R194, R268; log 18, DEDUCED). -/
def State.commitProposal (s : State) (id : Nat) : State :=
  match tfind s.proposals id with
  | none => s
  | some p =>
    match tfind s.cgroups p.group with
    | none => s
    | some q =>
      if p.state = 0 ∧ windowEnded s q p ∧ groupUnreachable s q = false ∧ p.release.done s q.scope then
        let cover := (p.release.now s).filter (stillOpen s)
        let team := ((tfind s.warps p.release.warp).map fun w => w.team).getD 0
        let s := (s.publishAt p.release.warp team q.scope cover [claimPlace p.group p.key.toNat]).giveWon p.claimant cover
        { s with committed := tput s.committed (groupKey p.group p.key.toNat) (p.num, p.value) }.closeProposal id p 2 0
      else s

/-- A commit that is due on a key takes place before anything else on it (R316, R318). -/
def State.settleKey (s : State) (g : Nat) (k : Word) : State :=
  match openOn s g k with
  | some (id, _) => s.commitProposal id
  | none => s

/-- The next proposal number (R316). -/
def nextNumber (n : Nat) : Nat := if 0xFFFFFFFD ≤ n then 0 else n + 1

/-- Send the proposal to every member but the claimant. -/
def State.announce (s : State) (g : Nat) (q : ClaimGroup) (p : Proposal) : State :=
  q.members.zipIdx.foldl (fun s e =>
    if e.2 = p.member then s
    else if q.cross && e.1 != Config.deviceNumber.toNat then
      { s with outbox := s.outbox ++ [.proposal e.1 g p.num p.key p.value] }
    else s.send (.deliver g e.2 p.num p.key p.value)) s

/-- Key slots that a partition may use on a die (R312); the hypervisor's own is the die's all (log 11, DEDUCED). -/
def keyQuota (s : State) (part d : Nat) : Nat :=
  if part = Config.hvPartition then 16384 else (s.part part).keyQuota.getD d 0

/-- A claim opens as a proposal, if its key has or finds a slot (R313, R316). -/
def State.openClaim (s : State) (g : Nat) (q : ClaimGroup) (k : Word) (v : DWord) (member : Nat) (c : Claimant) (rel : Release) :
    State :=
  let d := keyHome g k.toNat
  let key := groupKey g k.toNat
  let used := tget 0 (s.die d).usedKeys q.part
  if !s.keySlots.contains key && decide (keyQuota s q.part d ≤ used) then s.sendOutcome c 0x0BA
  else
    let s := if s.keySlots.contains key then s
      else { s.modDie d (fun x => { x with usedKeys := tset 0 x.usedKeys q.part (used + 1) }) with
             keySlots := key :: s.keySlots }
    let p : Proposal := { group := g, num := q.next, key := k, value := v, member := member, claimant := c,
                          ta := timeOf s d, state := 0, release := rel }
    ({ s with proposals := tput s.proposals s.nextId p, nextId := s.nextId + 1,
              cgroups := tput s.cgroups g { q with next := nextNumber q.next } }).announce g q p

/-- A later claim in the order of R320 has been taken from the member in this ns. -/
def takenLater (s : State) (x : Taken) : Bool :=
  s.taken.any fun e => e.key == x.key && e.time == x.time && e.member == x.member && decide (x.order < e.order)

/-- The home takes a claim. The TIME of another die may be 2 ns behind (R314). -/
def State.takeClaim (s : State) (x : Taken) : State :=
  { s with taken := x :: s.taken.filter fun e => decide (x.time ≤ e.time + 2) }

/-- The claim store of the key's home reads with an uncorrected error (R171). -/
def storeFails (s : State) (g : Nat) (k : Word) : Bool := s.bad.contains (8, keyHome g k.toNat)

/-- A claim of a member reaches its home (R316, R317, R320). None: it comes in a later ns, as one does that finds a proposal whose window
is over and whose commit waits for the accesses that it covers. (log 18, DEDUCED) -/
def State.judgeClaim (s : State) (g : Nat) (k : Word) (v : DWord) (member : Nat) (c : Claimant) (order : Nat) (rel : Release) :
    Option State :=
  match tfind s.cgroups g with
  | none => some (s.sendOutcome c 0x0B9)
  | some q0 =>
    if groupUnreachable s q0 then some (s.sendOutcome c 0x0BD)
    else if storeFails s g k then some ((s.meetError 8 (keyHome g k.toNat) 0 0).sendOutcome c 0x0BF)
    else
      let s := s.settleKey g k
      let q := tget q0 s.cgroups g
      let ta := timeOf s (keyHome g k.toNat)
      let x : Taken := { key := groupKey g k.toNat, time := ta, member := member, order := order }
      if takenLater s x then none
      else
        match openOn s g k with
        | none => some ((s.takeClaim x).openClaim g q k v member c rel)
        | some (id, p) =>
          if windowEnded s q p then none
          else if p.ta < ta || decide (p.member ≤ member) then some ((s.takeClaim x).sendOutcome c 1)
          else some (((s.takeClaim x).closeProposal id p 1 1).openClaim g q k v member c rel)

/-! ### CLAIM -/

/-- What a claim of warp g covers: what its active lanes come after (R194, R260, R262). -/
def claimRelease (s : State) (g : Nat) (w : Warp) (f : Syl) : Release :=
  let act := w.r.active f.g1 f.g2
  { warp := g, seq := w.memSeq, act := act, cover := coverFor s g .fence act, place := g, pc := s.issue.pc, syl := encode (.claim f) }

/-- Issue of CLAIM: the flag is bound and the claim sent, or its error returned. -/
def State.issueClaim (s : State) (w : Warp) (f : Syl) : State :=
  let g := s.cur
  let n := f.e.toNat
  let l := lowLane w.r.group.mask
  let word := src32 w s.issue f.e f.a.toNat l
  let k := src32 w s.issue f.e f.b.toNat l
  let v := src64 w s.issue f.e f.c.toNat l
  let s := { s.modWarp g (fun w => w.bindFlag n s.nextId) with nextId := s.nextId + 1 }
  match groupName s w.part word with
  | .invalid => s.sendOutcome (.warp g n) 0x0B9
  | .remote x => s.send (.claim x 0 k v 0 g n (claimRelease s g w f))
  | .here x =>
    match memberOf s g w.part x with
    | none => s.sendOutcome (.warp g n) 0x0B9
    | some m => s.send (.claim x (groupId s x) k v m g n (claimRelease s g w f))

/-- A message leaves for another device, whose answer is to come under the message's number. -/
def State.sendAway (s : State) (m : ClaimMsg) (x : Nat → Outbound) : State :=
  { s.send m with outbox := s.outbox ++ [x s.nextId] }

/-- A claim for a group of another device leaves once what it covers has been performed at `.sys`; it is over where the plane is down
(R194, R315, R394). -/
def State.claimLeaves (s : State) (id word : Nat) (k : Word) (v : DWord) (g n : Nat) (rel : Release) : State :=
  let dev := bitsOf word 16 8
  let s' := { s with cmsgs := terase s.cmsgs id }
  if s.unreachable.contains dev then s'.sendOutcome (.warp g n) 0x0BD
  else if rel.done s 4 then s'.sendAway (.away dev g n) fun tag => .claim dev (word % 4096) k v rel.place tag
  else s

/-- What another device's CLREAD reads (R394); the words beside a status 1 or 2 are free values. -/
def State.remoteRead (s : State) (tag : Nat) (r : Remote) : State :=
  let n := r.group.toNat % 4096
  let answer := fun (s : State) st num v => { s with outbox := s.outbox ++ [.claimValue r.device.toNat tag st num v] }
  let open_ := fun (s : State) st => (answer s st (freeWord s 0) (Config.freeValue (s.free + 1))).spend 2
  match deviceMember s r.device.toNat n with
  | none => open_ s 2
  | some _ =>
    let s := s.settleKey n r.key
    match tfind s.committed (groupKey n r.key.toNat) with
    | none => open_ s 1
    | some (num, v) => answer s 0 num v

/-- The calendar slot carries claim messages (R315). -/
def claimSlot (s : State) : Bool := s.now / 2 % 128 == 0

/-- A message of this device has left in a claim slot: from then on it may arrive in any ns, its transit lying between (R315). -/
def hasLeft (s : State) (id : Nat) : Bool := claimSlot s || decide (id < s.carried)

/-- CLAIM_ARRIVAL: a claim of this device, or a claim or a CLREAD of another device with its tag (R316, R394). One for a group of
another device leaves for it: its outcome comes back. -/
def State.claimArrives (s : State) (id : Nat) (remote : Option Remote) : State :=
  match remote with
  | some r =>
    if r.read then s.remoteRead id r
    else
      let c : Claimant := .device r.device.toNat id
      let n := r.group.toNat % 4096
      match deviceMember s r.device.toNat n with
      | none => s.sendOutcome c 0x0B9
      | some m => (s.judgeClaim n r.key r.value m c r.order.toNat { warp := 0, seq := 0, act := 0, cover := [] }).getD s
  | none =>
    if !hasLeft s id then s
    else
    match tfind s.cmsgs id with
    | some (.claim g gid k v m w n rel) =>
      if 2 ^ 31 ≤ g then s.claimLeaves id g k v w n rel
      else
        let s' := { s with cmsgs := terase s.cmsgs id }
        if groupId s g = gid then (s'.judgeClaim g k v m (.warp w n) rel.place rel).getD s else s'.sendOutcome (.warp w n) 0x0B9
    | _ => s

/-- What another device answers to a claim; the plane's own answer where it is down (R315). -/
def awayResult (s : State) (dev answer : Nat) : Nat :=
  if s.unreachable.contains dev then 0x0BD
  else match answer % 6 with
    | 0 => 0
    | 1 => 1
    | 2 => 0x0B9
    | 3 => 0x0BA
    | 4 => 0x0BF
    | _ => 0x0BD

/-- The flag of a claim is written. -/
def State.claimFlag (s : State) (g n r : Nat) : State := if r < 2 then s.finishFlag g n 1 r else s.finishFlag g n 2 (r - 0x0A0)

/-- The oldest proposal of an inbox as a poll's words, or what it reads otherwise; key and value are then free values (R195). -/
def State.takeProposal (s : State) (key other : Nat) : State × List Nat :=
  match tget [] s.inboxes key with
  | [] => (s.spend 3, [other, freeWord s 0, freeWord s 1, freeWord s 2])
  | (n, k, v) :: t =>
    ({ s with inboxes := if t.isEmpty then terase s.inboxes key else tput s.inboxes key t },
      [n, k.toNat, (lowWord v).toNat, (highWord v).toNat])

/-- CLAIM_OUTCOME (R316): the flag is written. A claim on another device's group takes the answer that comes, as does a CLREAD of one:
status, number, value. A CLPOLL learns whether the group exists (R394). -/
def State.claimOutcome (s : State) (id answer : Nat) : State :=
  if !hasLeft s id then s
  else
  let s' := { s with cmsgs := terase s.cmsgs id }
  match tfind s.cmsgs id with
  | some (.outcome (.warp g n) result) => s'.claimFlag g n result
  | some (.away dev g n) => s'.claimFlag g n (awayResult s dev answer)
  | some (.poll word _ reply) =>
    if answer % 3 = 2 then (s'.spend 3).fillReply reply (scalarVals [0xFFFFFFFE, freeWord s' 0, freeWord s' 1, freeWord s' 2])
    else
      let q := s'.takeProposal (memberKey word 0) 0xFFFFFFFF
      q.1.fillReply reply (scalarVals q.2)
  | some (.read _ _ _ reply _) =>
    let v := answer / 2 ^ 34
    let st := answer % 4 % 3
    s'.fillReply reply (scalarVals [st, answer / 4 % 2 ^ 32, v % 2 ^ 32, v / 2 ^ 32 % 2 ^ 32])
  | _ => s

/-! ### OBJECT -/

/-- Issue of OBJECT (R195). -/
def State.issueObject (s : State) (w : Warp) (f : Syl) (i : Instr) : State :=
  let g := s.cur
  let l := lowLane w.r.group.mask
  let word := src32 w s.issue f.e f.a.toNat l
  let num := (src32 w s.issue f.e f.b.toNat l).toNat
  let reply := s.nextId
  let sent := s.issueReply g f.d.toNat 1 w.r.group.mask [] false false
  let msg := fun n id m => ClaimMsg.object n id num m g reply s.issue.pc (encode i) w.r.group.mask
  let three := s.issueReply g f.d.toNat 1 w.r.group.mask (scalarVals [3]) true false
  match groupName s w.part word with
  | .invalid => three
  | .remote x => sent.sendAway (msg x 0 0) fun tag => .objection (bitsOf x 16 8) (x % 4096) num tag
  | .here x =>
    match memberOf s g w.part x with
    | none => three
    | some m => sent.send (msg x (groupId s x) m)

/-- The proposal of a number: the open one, else the newest, since numbers come again (R316). -/
def proposalOf (s : State) (g num : Nat) : Option (Nat × Proposal) :=
  let named := s.proposals.filter fun e => e.2.group == g && e.2.num == num
  match named.find? fun e => e.2.state == 0 with
  | some e => some e
  | none => named.getLast?

/-- The judgement of R318: status 0 to 3, 4 for 0x0BB, 5 for 0x0BC. -/
def State.judgeObjection (s : State) (g num member : Nat) : State × Nat :=
  match tfind s.cgroups g, proposalOf s g num with
  | none, _ => (s, 3)
  | some _, none => (s, 1)
  | some q, some (id, p0) =>
    let s := s.settleKey g p0.key
    let p := tget p0 s.proposals id
    if p.state = 1 then (s, 2)
    else if p.state = 2 || windowEnded s q p then (s, 4)
    else if p.member = member then (s, 5)
    else (s.closeProposal id p 1 1, 0)

/-- OBJECTION_ARRIVAL: an objection of this device, or one of another device with its tag; one to a group of another device
takes the answer that comes. -/
def State.objectionArrives (s : State) (id : Nat) (remote : Option Remote) (answer : Nat) : State :=
  match remote with
  | some r =>
    let n := r.group.toNat % 4096
    let q := match deviceMember s r.device.toNat n with
      | none => (s, 3)
      | some m => s.judgeObjection n r.num.toNat m
    { q.1 with outbox := q.1.outbox ++ [.claimResult r.device.toNat id q.2] }
  | none =>
    if !hasLeft s id then s
    else
    match tfind s.cmsgs id with
    | some (.object g gid num m w reply pc syl lanes) =>
      let s := { s with cmsgs := terase s.cmsgs id }
      let q := if 2 ^ 31 ≤ g then (s, answer % 6) else if groupId s g = gid then s.judgeObjection g num m else (s, 3)
      if q.2 < 4 then q.1.fillReply reply (scalarVals [q.2])
      else (q.1.dropReply reply).deferFault w reply (0x0BB + (q.2 - 4)) pc syl lanes 0
    | _ => s

/-! ### Inboxes (R195, R311) -/

/-- The warp of a local member, or the last poller of a cross-device group. -/
def inboxWarp (s : State) (n m : Nat) : Option Nat :=
  match tfind s.cgroups n with
  | some q => if q.cross then tfind s.pollers n else tfind q.bound m
  | none => tfind s.pollers n

def State.putInbox (s : State) (key : Nat) (warp : Option Nat) (e : Nat × Word × DWord) : State :=
  let box := tget [] s.inboxes key
  let s := { s with inboxes := tput s.inboxes key ((if 64 ≤ box.length then box.tail else box) ++ [e]) }
  if box.length < 64 then s
  else
    match warp.bind fun g => (tfind s.warps g).map fun w => (g, w) with
    | some (g, w) => { s.deferFault g s.nextId 0x0BE w.r.group.pc 0 w.r.group.mask 0 with nextId := s.nextId + 1 }
    | none => s.logError 0 0x0BE 0 0 0 0

/-- INBOX_DELIVERY: a proposal of this device's store, or one that another device sends (R316), which also tells that its group is
destroyed (R312). -/
def State.inboxDelivery (s : State) (id : Nat) (remote : Option Remote) : State :=
  match remote with
  | some r =>
    let word := 2 ^ 31 + r.device.toNat * 2 ^ 16 + r.group.toNat % 4096
    if r.gone then { s with inboxes := terase s.inboxes (memberKey word 0), pollers := terase s.pollers word }
    else s.putInbox (memberKey word 0) (tfind s.pollers word) (r.num.toNat, r.key, r.value)
  | none =>
    if !hasLeft s id then s
    else
    match tfind s.cmsgs id with
    | some (.deliver g m num k v) =>
      let s := { s with cmsgs := terase s.cmsgs id }
      (match tfind s.cgroups g with
       | none => s
       | some q =>
         if q.cross || (tfind q.bound m).isSome then s.putInbox (memberKey g m) (inboxWarp s g m) (num, k, v) else s)
    | _ => s

/-- Issue of CLPOLL (R195): key and value of an empty or refused poll are free values. A group of another device is looked up there
first (R394). -/
def State.issuePoll (s : State) (w : Warp) (f : Syl) : State :=
  let g := s.cur
  let word := src32 w s.issue f.e f.a.toNat (lowLane w.r.group.mask)
  let give := fun (s : State) ws => s.issueReply g f.d.toNat 4 w.r.group.mask (scalarVals ws) true false
  let none_ := fun (s : State) n => (give s [n, freeWord s 0, freeWord s 1, freeWord s 2]).spend 3
  match groupName s w.part word with
  | .invalid => none_ s 0xFFFFFFFE
  | .remote x =>
    ({ s with pollers := tput s.pollers x g }.issueReply g f.d.toNat 4 w.r.group.mask [] false false).sendAway
      (.poll x g s.nextId) fun tag => .claimPoll (bitsOf x 16 8) (x % 4096) tag
  | .here x =>
    match memberOf s g w.part x with
    | none => none_ s 0xFFFFFFFE
    | some m =>
      let s := match tfind s.cgroups x with
        | some q => if q.cross then { s with pollers := tput s.pollers x g } else s
        | none => s
      let q := s.takeProposal (memberKey x m) 0xFFFFFFFF
      give q.1 q.2

/-- Issue of CLREAD (R196): a read of a commit acquires for its active lanes (R262, R268). One of another device's group travels to it (R394), and holds later
memory and engine issue until its answer is there (R259); the words beside a status 1 or 2 are free values. -/
def State.issueRead (s : State) (w : Warp) (f : Syl) : State :=
  let g := s.cur
  let l := lowLane w.r.group.mask
  let word := src32 w s.issue f.e f.a.toNat l
  let k := src32 w s.issue f.e f.b.toNat l
  let give := fun (s : State) ws => s.issueReply g f.d.toNat 4 w.r.group.mask (scalarVals ws) true false
  let open_ := fun (s : State) st => (give s [st, freeWord s 0, freeWord s 1, freeWord s 2]).spend 3
  match groupName s w.part word with
  | .invalid => open_ s 2
  | .remote x => ((s.modWarp g fun w => w.hold s s.nextId true).issueReply g f.d.toNat 4 w.r.group.mask [] false false).sendAway
      (.read x k g s.nextId (w.r.active f.g1 f.g2)) fun tag => .claimRead (bitsOf x 16 8) (x % 4096) k tag
  | .here x =>
    match memberOf s g w.part x with
    | none => open_ s 2
    | some _ =>
      let s := s.settleKey x k
      match tfind s.committed (groupKey x k.toNat) with
      | none => open_ s 1
      | some (n, v) => give (s.acquireAt g (w.r.active f.g1 f.g2) (((tfind s.cgroups x).map ClaimGroup.scope).getD 3) [claimPlace x k.toNat]) [0, n, (lowWord v).toNat, (highWord v).toNat]

/-! ### Groups (R193, R310, R311) -/

/-- Slot number of a local member's entry. -/
def memberSlot (m : Nat) : Nat := 5120 * bitsOf m 9 2 + 64 * bitsOf m 2 7 + 16 * (m % 4) + bitsOf m 11 4

def memberOk (s : State) (part kind m : Nat) : Bool :=
  if kind = 0 then m / 2 ^ 15 == 0 && decide (bitsOf m 2 7 < 80) && clusterOwned s part (80 * bitsOf m 9 2 + bitsOf m 2 7)
  else m / 256 == 0 && (m == Config.deviceNumber.toNat || deviceReached s part m)

/-- The lowest group number that is free. -/
def freeGroup (s : State) : Option Nat := (List.range 4096).find? fun n => (tfind s.cgroups n).isNone

/-- Status and group word of CLGRP: a descriptor at no multiple of 64, or MEMBERS at no multiple of 8, counts as invalid; of several reasons
to refuse, 3 comes before 2 and 2 before 1. (log 77, DESIGN CHOICE) -/
def State.createGroup (s : State) (w : Warp) (cl va : Nat) : State × Nat × Nat :=
  let bad := fun (s : State) n => (s, n, 0xFFFFFFFF)
  match readRecord cl w.who s va 64 with
  | (s, .error _) => bad s 3
  | (s, .ok d) =>
    let count := recField d 0 2
    let kind := recField d 2 1
    let win := recField d 4 4
    let at1 := recField d 8 8
    if va % 64 != 0 || count == 0 || decide (4096 < count) || decide (1 < kind) || recField d 3 1 != 0 ||
        recField d 0x10 48 != 0 || at1 % 8 != 0 then bad s 3
    else
      match readRecord cl w.who s at1 (8 * count) with
      | (s, .error _) => bad s 3
      | (s, .ok b) =>
        let ms := (List.range count).map fun i => recField b (8 * i) 8
        if !decide ms.Nodup || !ms.all (memberOk s w.part kind) then bad s 3
        else if win < (if kind = 0 then 2048 else 2 * clxb s) || decide (1000000 < win) then bad s 2
        else
          match freeGroup s with
          | none => bad s 1
          | some n =>
            let live := fun g => match tfind s.warps g with
              | some x => !x.ended
              | none => false
            let bound := if kind = 0 then ms.zipIdx.filterMap fun e =>
                if live (memberSlot e.1) then some (e.2, memberSlot e.1) else none else []
            let q : ClaimGroup := { id := s.nextId, part := w.part, cross := kind == 1, window := win, members := ms, bound := bound, next := 0 }
            ({ s with cgroups := tput s.cgroups n q, nextId := s.nextId + 1 }, 0,
             if kind = 0 then n else 2 ^ 31 + Config.deviceNumber.toNat * 2 ^ 16 + n)

/-- Issue of CLGRP (R193): its descriptor is read later, in a slot of the partition (R291). -/
def State.issueGroup (s : State) (w : Warp) (f : Syl) : State :=
  let va := (src64 w s.issue f.e f.a.toNat (lowLane w.r.group.mask)).toNat
  (s.issueReply s.cur f.d.toNat 2 w.r.group.mask [] false false).askReply s.nextId (.group va w.level)

/-- A CLGRP that waits creates its group in a slot of its partition: status and group word (R193, R291). -/
def State.grantGroup (s : State) (id : Nat) : State :=
  match tfind s.replies id with
  | none => s
  | some q =>
    match q.req, tfind s.warps q.warp with
    | some (.group va lv), some w =>
      if slotOpen s w.part then
        let r := s.createGroup { w with level := lv } (clusterOf q.warp) va
        { r.1 with replies := tput r.1.replies id { q with vals := scalarVals [r.2.1, r.2.2], ready := true, req := none } }
      else s
    | _, _ => s

/-- CLAIM_GROUP_DESTROY (R312): a proposal whose window is over has committed; every open one loses. The member devices learn it. -/
def State.destroyGroup (s : State) (part n : Nat) : State :=
  match tfind s.cgroups n with
  | none => s
  | some q =>
    if q.part ≠ part then s
    else
      let mine := fun s : State => s.proposals.filter fun e => e.2.group == n && e.2.state == 0
      let s := (mine s).foldl (fun s e => s.commitProposal e.1) s
      let s := (mine s).foldl (fun s e => s.closeProposal e.1 e.2 1 1) s
      let keys := s.keySlots.filter fun k => k / 2 ^ 32 == n
      let s := keys.foldl (fun s k => s.modDie (keyHome n k) fun d =>
        { d with usedKeys := tset 0 d.usedKeys part (tget 0 d.usedKeys part - 1) }) s
      { s with cgroups := terase s.cgroups n, pollers := terase s.pollers n,
               proposals := s.proposals.filter (fun e => e.2.group ≠ n),
               committed := s.committed.filter (fun e => e.1 / 2 ^ 32 ≠ n),
               keySlots := s.keySlots.filter (fun k => k / 2 ^ 32 ≠ n),
               outbox := s.outbox ++ (if q.cross then q.members.filter fun d => d != Config.deviceNumber.toNat else []).map fun d => .groupGone d n,
               inboxes := s.inboxes.filter (fun e => e.1 / 4096 ≠ n),
               cmsgs := s.cmsgs.filter (fun e => match e.2 with
                 | .deliver g _ _ _ _ => g != n
                 | _ => true) }

/-- CLAIM_PLANE_UNREACHABLE (R315): every open proposal of a group with that member ends with 0x0BD; one whose window is over has
committed. -/
def State.planeLost (s : State) (dev : Nat) : State :=
  let s := (s.proposals.filter fun e => e.2.state == 0).foldl (fun s e => s.commitProposal e.1) s
  let s := { s with unreachable := if s.unreachable.contains dev then s.unreachable else dev :: s.unreachable }
  (s.proposals.filter fun e => e.2.state == 0).foldl (fun s e =>
    match tfind s.cgroups e.2.group with
    | some q => if groupUnreachable s q then s.closeProposal e.1 e.2 1 0x0BD else s
    | none => s) s

/-- Causes at issue (R171, R193). -/
def claimRaises (s : State) (w : Warp) (i : Instr) : List TrapInfo :=
  match i with
  | .claim f =>
    if w.r.active f.g1 f.g2 ≠ 0 && (w.flag f.e.toNat).bound then [raise1 s.issue.pc 0x0B8 w.r.group.mask 0] else []
  | .clgrp f =>
    if w.r.active f.g1 f.g2 ≠ 0 && w.level.num == 0 then [raise1 s.issue.pc 0x110 w.r.group.mask 0] else []
  | _ => []

end Sys2Proof.Machine
end

