-- ==== Sys2Proof/Machine/CtlOps.lean ====
section
/-! DEFINITION. The control slot's shared operations (R198 to R230): the end of a bundle, transfers and splits, joins,
barriers, waits, forks and suspensions, regions, allotments, and the slot's causes at issue. -/

namespace Sys2Proof.Machine

/-! ### Addresses -/

/-- A program counter: bits [55:5] (R10). -/
def pcOf (v : Nat) : DWord := BitVec.ofNat 64 (v % 2 ^ 56 / 32 * 32)

/-- pc + 32·off modulo 2^64 (R201, R203). -/
def relPc (pc : DWord) (off : Int) : Nat := (pc + 32 * BitVec.ofInt 64 off).toNat

/-- Offset of n bits of IMM, sign-extended (R203). -/
def ctlOffset (f : Ctl) (n : Nat) : Int := asSigned n (f.bits 0 n)

def ctlLabel (f : Ctl) (pc : DWord) : Nat := relPc pc (ctlOffset f 32)

/-! ### The instruction cache (R159, R369) -/

/-- The instruction cache of a cluster takes a bundle. -/
def State.fillCode (s : State) (cl key : Nat) (b : BitVec 256) : State :=
  s.modCluster cl fun c => { c with icache := ((key, b) :: c.icache.filter fun e => e.1 ≠ key).take 4096 }

/-- The bundle at a program counter: from the cluster's instruction cache, else from memory. (log 25, DEDUCED) -/
def State.fetchAt (s : State) (cl : Nat) (who : Who) (va : Nat) : State × Except Nat (BitVec 256) :=
  match translate s cl who .fetch va with
  | (s, .fault q) => (s, .error q)
  | (s, .miss) => (s, .error 0)
  | (s, .ok k) =>
    let key := codeKey who.ctx va
    match (s.cluster cl).icache.find? fun e => e.1 == key with
    | some e => (s, .ok e.2)
    | none =>
      match s.clusterRead cl k 32 with
      | (s, some bs) => (s, .ok (BitVec.ofNat 256 (bytesToNat bs)))
      | (s, none) => (s, .error 5)

/-! ### The end of a bundle (R13, R43, R204, R207) -/

/-- The bundles at the two addresses from pc on that the group holds already or finds in the instruction cache (R369).
(log 25, DEDUCED) -/
def State.fetchAhead (s : State) (cl ctx : Nat) (g : Group) (pc : DWord) : List (DWord × BitVec 256) :=
  [pc, pcAfter pc 1].filterMap fun p =>
    match g.ahead.find? fun e => e.1 == p with
    | some e => some e
    | none => ((s.cluster cl).icache.find? fun e => e.1 == codeKey ctx p.toNat).map fun e => (p, e.2)

/-- Distinct values in the order of their first appearance. -/
def firsts : List DWord → List DWord := List.foldl (fun acc p => if acc.contains p then acc else acc ++ [p]) []

/-- The groups into which a completed transfer splits a group, the lowest lane first (R207). -/
def splitGroup (g : Group) (x : Transfer) : List Group :=
  let pc := fun l => if x.lanes.getLsbD l then tget 0 x.target l &&& pcMask else g.pc
  (firsts ((laneList g.mask).map pc)).map fun p =>
    { mask := g.mask &&& maskOf (fun l => pc l == p), pc := p, wait := g.wait, pending := none, last := true }

/-- The group has issued its bundle and goes on at pc. -/
def Group.passed (g : Group) (pc : DWord) (ahead : List (DWord × BitVec 256)) : Group :=
  { g with pc := pc, paid := false, last := true, ahead := ahead }

/-- No group of the warp is the one that issued last, nor due early. -/
def Regs.unmark (r : Regs) : Regs := { r with groups := r.groups.map fun g => { g with last := false, soon := none } }

/-- Warp cycles that a split into n groups adds (R204); for a transfer that RFT has put back they count the targets of its own
lanes (R344). -/
def splitCycles (g : Group) (x : Transfer) (n : Nat) : Nat :=
  if x.restored then (firsts ((laneList (g.mask &&& x.lanes)).map fun l => tget 0 x.target l)).length - 1 else n - 1

/-- The current group moves past the bundle at pc; a transfer whose delay bundles have issued takes place. The extra
warp cycles of a split come with it (R204). -/
def Regs.passBundle (r : Regs) (pc : DWord) (ahead : List (DWord × BitVec 256)) : Regs × Nat :=
  let g := r.group.passed (pcAfter pc 1) ahead
  match g.pending with
  | none => (r.setGroup g, 0)
  | some x =>
    if 1 < x.left then (r.setGroup { g with pending := some { x with left := x.left - 1 } }, 0)
    else
      let gs := splitGroup g x
      ({ r with groups := r.groups.take r.cur ++ gs ++ r.groups.drop (r.cur + 1) }, splitCycles g x gs.length)

/-- The bundle being issued is over for its group: PC, due time, hints. The control operation's own effect comes after. -/
def State.advance (s : State) : State :=
  s.modWarp s.cur fun w =>
    let q := w.r.unmark.passBundle s.issue.pc (s.fetchAhead (clusterOf s.cur) w.ctx w.r.group (pcAfter s.issue.pc 1))
    let r := { q.1.compact with due := s.issue.t + 1 + s.issue.gap + q.2, wtime := s.issue.t }
    { w with r := r, burst := if q.2 = 0 then w.burst + 1 else 0, branch := q.2, yieldHint := s.issue.yield,
             loop := w.loop.map (fun (q : LoopCtl) => { q with closed := false }) }

/-- A trap that is taken when the whole bundle has issued: its cause and ID (R227, R335, R366). -/
def State.afterBundle (s : State) (cause id : Nat) : State := { s with issue := { s.issue with trap := some (cause * 2 ^ 16 + id) } }

/-- The selected warps of the debug features step, unless they run a handler (R365). -/
def steps (s : State) (w : Warp) : Bool :=
  (pdReg s 0x1A0 w.part (dieOf s.cur) 0).getLsbD 0 && debugSelects s s.cur w.part && w.handlers.isEmpty && w.level == .user

/-- An edge of region id stops the warp (R365, R366). -/
def regionStops (s : State) (w : Warp) (id : Nat) : Bool :=
  let c := (pdReg s 0x1A0 w.part (dieOf s.cur) 0).toNat
  (bitsOf c 1 2 == 1 || (bitsOf c 1 2 == 2 && bitsOf c 4 16 == id)) && debugSelects s s.cur w.part && w.handlers.isEmpty &&
    w.level == .user

/-- The trap of a bundle that has issued, taken at warp time T, its next bundle's due time (R335). -/
def State.takeSoft (s : State) (g T : Nat) (x : Nat × DWord × Lanes) : State :=
  takeTrapAt s g T { cause := x.1 / 2 ^ 16, id := x.1 % 2 ^ 16, pc := x.2.1.toNat, lanes := x.2.2, va := 0, reasons := 0 }

/-- TRAP #n, a region stop or a single step is taken when its whole bundle has issued and its gap has passed, in a slot of the partition
(R291, R335). A stepped bundle that holds a TRAP raises 0x121 too, which is taken when the trap's handler has returned (R366).
(log 84, DEDUCED) -/
def State.softTrap (s : State) (w0 : Warp) : State :=
  let code := match s.issue.trap with
    | some n => some n
    | none => if steps s w0 then some (0x121 * 2 ^ 16) else none
  match code, s.curWarp with
  | some n, some w =>
    if w.ended then s
    else
      let after := steps s w0 && decide (n / 2 ^ 16 ≠ 0x121) && decide (n / 2 ^ 16 ≠ 0x122)
      let s := if after then s.modWarp s.cur fun w => { w with stepped := some s.issue.pc } else s
      let x := (n, s.issue.pc, w0.r.group.mask)
      let t := if w.r.due ≤ s.issue.t + 1 && !writesShut s w.part then s.takeSoft s.cur w.r.due x
        else s.modWarp s.cur fun w => { w with soft := some x }
      { t with issue := { s.issue with trap := none } }
  | _, _ => s

/-- Change the current warp. -/
def State.modCur (s : State) (f : Warp → Warp) : State := s.modWarp s.cur f

/-- The current group enters a wait state; the warp's next ready group follows (R294). -/
def Warp.setWait (w : Warp) (x : Wait) : Warp := { w with r := w.r.setGroup { w.r.group with wait := x } }

def Warp.setPc (w : Warp) (pc : DWord) : Warp := { w with r := w.r.setGroup { w.r.group with pc := pc } }

/-! ### Transfers (R203 to R208) -/

/-- The lanes that a transfer moves. -/
def transferLanes (w : Warp) (i : Instr) (f : Ctl) : Lanes :=
  let act := w.r.active f.g1 f.g2
  match i with
  | .brd _ => act
  | _ => if act = 0 then 0 else w.r.group.mask

/-- The transfer goes through a B register: its number. -/
def transferReg (i : Instr) (f : Ctl) : Option Nat :=
  match i with
  | .ret _ => some 7
  | _ => if f.a = 0 then none else some (f.a.toNat % 8)

/-- Target of a lane, unmasked. -/
def transferTarget (w : Warp) (pc : DWord) (i : Instr) (f : Ctl) (l : Nat) : Nat :=
  match transferReg i f with
  | some b => (w.r.readB b l).toNat
  | none => ctlLabel f pc

/-- Reason of R208 of one target. -/
def targetReason (s : State) (w : Warp) (landing : Bool) (t : Nat) : Nat :=
  if t % 32 ≠ 0 ∨ 2 ^ 56 ≤ t then 2
  else
    match (s.fetchAt (clusterOf s.cur) w.who t).2 with
    | .error 0 => 1
    | .error 2 => 4
    | .error 3 => 4
    | .error 4 => 5
    | .error _ => 6
    | .ok b => if landing && !b.getLsbD (192 + 44) then 3 else 0

/-- The distinct PCs that a group's lanes reach. -/
def reachedPcs (w : Warp) (pc : DWord) (i : Instr) (f : Ctl) : List DWord :=
  let m := transferLanes w i f
  firsts ((laneList w.r.group.mask).map fun l =>
    if m.getLsbD l then pcOf (transferTarget w pc i f l) else pcAfter pc 3)

/-- The transfer waits for its two delay bundles. (log 63, DEDUCED) -/
def State.transfer (s : State) (w : Warp) (i : Instr) (f : Ctl) : State :=
  let m := transferLanes w i f
  let x : Transfer := { left := 2, lanes := m,
                        target := laneTable 0 m fun l => pcOf (transferTarget w s.issue.pc i f l) }
  s.modCur fun w => { w with r := w.r.setGroup { w.r.group with pending := some x } }

/-- Causes of a transfer (R206 to R208, R230). (log 54, DEDUCED) -/
def transferRaises (s : State) (w : Warp) (i : Instr) (f : Ctl) : List TrapInfo :=
  let act := w.r.active f.g1 f.g2
  let grp := w.r.group.mask
  let pc := s.issue.pc
  let m := transferLanes w i f
  let raise := fun (b : Bool) cause => if b then [raise1 pc cause grp 0] else []
  let uniform := match i with
    | .brd _ => false
    | _ => true
  let ts := (laneList m).map fun l => (l, transferTarget w pc i f l)
  if act = 0 then []
  else
    raise (uniform && act != grp) 0x040 ++
    (match i with
     | .ret _ => raise (w.r.rd == 0) 0x043
     | .call _ => raise (w.r.rd == 255) 0x044
     | .bra _ => raise ((transferReg i f).isSome && decide (1 < (firsts (ts.map fun e => BitVec.ofNat 64 e.2)).length)) 0x041
     | _ => []) ++
    (match transferReg i f with
     | none => if 2 ^ 56 ≤ ctlLabel f pc then [raise1 pc 0x050 grp (ctlLabel f pc)] else []
     | some _ =>
       let landing := match i with
         | .ret _ => false
         | _ => true
       let rs := ts.map fun e => (e.1, targetReason s w landing e.2)
       let bad := m &&& maskOf fun l => tget 0 rs l != 0
       if bad = 0 then []
       else [{ cause := 0x042, id := 0, pc := pc.toNat, lanes := bad, va := tget 0 ts (lowLane bad),
               reasons := rs.foldl (fun n e => n + e.2 * 8 ^ e.1) 0 }]) ++
    raise (decide (16 < w.r.groups.length - 1 + (reachedPcs w pc i f).length)) 0x045

/-- PREP and PREPI write B registers at once (R28, R203). -/
def Regs.writeBs (r : Regs) (b : Nat) (m : Lanes) (val : Nat → Nat) : Regs :=
  (laneList m).foldl (fun r l => r.writeB b l (BitVec.ofNat 64 (val l % 2 ^ 56))) r

/-! ### Barriers (R212, R263) -/

/-- The whole issuing group arrives at barrier b; with `wait` it waits there. -/
def State.arriveBarrier (s : State) (w : Warp) (b n : Nat) (wait : Bool) : State :=
  match tfind s.teams w.team with
  | none => s
  | some t =>
    let x := t.bar b
    let old := tget [] x.fences w.wid
    let x := { x with count := if x.count = 0 then n else x.count,
                      lanes := tput x.lanes w.wid (tget 0 x.lanes w.wid ||| w.r.group.mask),
                      fences := tput x.fences w.wid (old ++ (openFences s s.cur).filter fun i => !old.contains i) }
    let s := { s with teams := tput s.teams w.team (t.setBar b x) }
    let s := if wait then s.modCur fun w => w.setWait (.barrier b x.phase) else s
    s.checkBarrier w.team b

def barRaises (s : State) (w : Warp) (f : Ctl) : List TrapInfo :=
  let b := f.bits 0 5
  let n := f.bits 8 7
  let raise := fun (c : Bool) cause => if c then [raise1 s.issue.pc cause w.r.group.mask 0] else []
  match tfind s.teams w.team with
  | none => []
  | some t =>
    let x := t.bar b
    raise (decide (t.barriers ≤ b)) 0x0C0 ++ raise (n == 0 || decide (t.warps < n)) 0x0C1 ++
    raise (x.count != 0 && x.count != n) 0x0C2 ++ raise (tget 0 x.lanes w.wid &&& w.r.group.mask != 0) 0x0C3

/-! ### Time waits (R215, R216, R290) -/

/-- The counter read of a time wait fails with a reason of R235. -/
def State.counterFault (s : State) (g : Nat) (q : Group) (va : DWord) (e : Nat) : State :=
  { s.deferFault g s.nextId (0x060 + 4 * e) ((q.pc - 32) &&& pcMask) 0 q.mask va with nextId := s.nextId + 1 }

/-- Test the time wait of group i of warp g again: its counter is read, and released or watched from then on; a read that
faults is reported and the wait stands. Of the counter's address the low 56 bits are translated (log 83, DESIGN CHOICE). What a peer
holds is a free value (log 13, DESIGN CHOICE). -/
def State.retestTime (s : State) (g i : Nat) : State :=
  match tfind s.warps g with
  | none => s
  | some w =>
    let q := w.r.groups.getD i Group.none
    match q.wait with
    | .sleep t => if t ≤ timeOf s (dieOf g) then s.modWarp g fun w =>
        { w with r := { w.r with groups := w.r.groups.set i { q with wait := .ready } } } else s
    | .timeline d va _ th p =>
      (match translate s (clusterOf g) w.who .read (va.toNat % 2 ^ 56) with
       | (s, .ok k) =>
         let r := if isWindow k then s.readPeer k 8 else (s.combineLine (lineOf k), false)
         let s := r.1
         if r.2 then s.counterFault g q va 5
         else
           let c := if isWindow k then (Config.freeValue s.free).toNat else s.counterAt k
           let s := if isWindow k then { s with free := s.free + 1 } else s
           if counterReached c th && !deadlinePast s g q.wait then
             (s.acquireAt g q.mask 4 [(k, 8)]).modWarp g fun w => { w with r := w.r.leaveTimeline i s.nextId true }
           else
             let wait : Wait := .timeline d va (some k) th p
             s.modWarp g fun w => { w with r := { w.r with groups := w.r.groups.set i { q with wait := wait } } }
       | (s, .fault e) => s.counterFault g q va e
       | (s, .miss) => s)
    | _ => s

/-- TLWAIT_DEADLINE (R215, R290): a change of the same ns comes first, so the wait ends when that ns is over. -/
def State.timelineDeadline (s : State) (g i : Nat) : State :=
  match tfind s.warps g with
  | none => s
  | some w =>
    match (w.r.groups.getD i Group.none).wait with
    | .timeline d a p t n =>
      if deadlinePast s g (.timeline d a p t n) then s.modWarp g fun w => { w with r := w.r.leaveTimeline i s.nextId false } else s
    | _ => s

/-- SLEEP_WAKE (R216). -/
def State.wakeSleeper (s : State) (g i : Nat) : State :=
  match tfind s.warps g with
  | none => s
  | some w =>
    match (w.r.groups.getD i Group.none).wait with
    | .sleep _ => s.retestTime g i
    | _ => s

/-- TIMELINE_COUNTER_UPDATE: the waiters on the counter at a place are tested; one behind a window reads what the peer
holds. The change wakes a cluster in retention (R363). -/
def State.counterUpdate (s : State) (k : Nat) : State :=
  if isWindow k then
    s.warps.foldl (fun s e => (List.range e.2.r.groups.length).foldl (fun s i =>
      if (counterOf (e.2.r.groups.getD i Group.none) k 8).isSome then s.retestTime e.1 i else s) (s.wakeWaiter e.1 k 8 e.2)) s
  else s.testCounters k 8

/-! ### Tasks (R217, R218, R280, R396) -/

/-- Sizes of the allocations of a FORK: a warp without a record takes one for itself first (R276). -/
def forkSizes (w : Warp) (frame : Nat) : List Nat := if w.record.isNone then [64, 64 + frame] else [64 + frame]

/-- Places for the allocations. -/
def forkPlaces (s : State) (cl : Nat) : List Nat → Option (List Nat)
  | [n] => (cactusFit s cl n).map fun a => [a]
  | n :: m :: _ =>
    match cactusFit s cl n with
    | none => none
    | some a => (cactusFit2 s cl a n m).map fun b => [a, b]
  | [] => none

def forkFrame (w : Warp) (iss : Issue) (f : Ctl) : Nat := (src32 w iss 0 f.a.toNat (lowLane w.r.group.mask)).toNat

def forkRaises (s : State) (w : Warp) (f : Ctl) : List TrapInfo :=
  let frame := forkFrame w s.issue f
  let cl := clusterOf s.cur
  let raise := fun (c : Bool) cause => if c then [raise1 s.issue.pc cause w.r.group.mask 0] else []
  raise (frame % 64 != 0) 0x01C ++
  (match forkPlaces s cl (forkSizes w frame) with
   | none => raise true 0x0C6
   | some ps => (ps.zip (forkSizes w frame)).flatMap fun e => writeRaise s w e.1 e.2) ++
  (match w.record with
   | some r => raise (joinFull s cl w.who r.toNat) 0x0C7
   | none => [])

/-- FORK at issue: records, counter, kitty. -/
def State.fork (s : State) (w : Warp) (f : Ctl) : State :=
  let g := s.cur
  let cl := clusterOf g
  let frame := forkFrame w s.issue f
  match forkPlaces s cl (forkSizes w frame) with
  | none => s
  | some ps =>
    let own : TaskRec := { pc := 0, kind := 0, prio := w.prio, resumed := false, frame := 0, parent := 0, join := 0,
                           lnid := w.lnid.toNat, allot := w.r.allot, aff := 0xFF, stage := 0, rd := 0, lat := latWord w.lat,
                           args := [] }
    let s := match w.record with
      | some _ => s
      | none =>
        let a := ps.headD 0
        ((writeVa cl w.who (s.cactusTake cl a 64) a 64 (taskBytes own)).1).modWarp g fun w =>
          { w with record := some (BitVec.ofNat 64 a) }
    let parent := match w.record with
      | some r => r.toNat
      | none => ps.headD 0
    let child := ps.getLastD 0
    let c := childRecord s g w (ctlLabel f s.issue.pc) (if frame = 0 then 0 else child + 64) parent (argWords w.r)
    let s := (c.1.translated w child (64 + frame)).cactusTake cl child (64 + frame)
    let s := (writeVa cl w.who s child 64 (taskBytes c.2)).1
    (s.addJoin cl w.who parent).pushKitty cl (recKey w.ctx child)

/-- JOIN of the warp's own record. -/
def ownJoin (s : State) (g : Nat) (w : Warp) : Nat :=
  match w.record with
  | none => 0
  | some r => (readField s (clusterOf g) w.who (r.toNat + 0x18) 4).2

/-- The warp holds an accumulator token that it has not released (R181, R218). -/
def holdsToken (s : State) (g : Nat) : Bool := (List.range 32).any fun t => holdsTile s g t

/-- The warp has work in flight that SYNC waits for (R218). -/
def warpBusy (s : State) (g : Nat) : Bool :=
  (s.mops.any fun e => e.2.warp == g) || (s.replies.any fun e => e.2.warp == g) ||
  (s.copies.any fun e => e.2.warp == g) || (s.mats.any fun e => e.2.warp == g) ||
  (s.walks.any fun e => e.2.warp == g) || (s.tsets.any fun e => e.2.warp == g) ||
  (s.deals.any fun e => e.2.warp == g) || (s.cuts.any fun e => e.2.warp == g) ||
  (s.posted.any fun e => e.2.warp == some g) || (s.owed.any fun i => owedBy i == some g) ||
  (s.cmsgs.any fun e => match e.2 with
    | .claim _ _ _ _ _ w _ _ => w == g
    | .object _ _ _ _ w _ _ _ _ => w == g
    | .read _ _ w _ _ => w == g
    | .away _ w _ => w == g
    | .poll _ w _ => w == g
    | .outcome (.warp w _) _ => w == g
    | _ => false) ||
  s.proposals.any fun e => e.2.state == 0 && (match e.2.claimant with
    | .warp w _ => w == g
    | _ => false)

/-- SYNC has no effect: no child is outstanding and none was while it was held (R218, R280); a loop warp's never suspends (R283). -/
def syncIdle (s : State) (g : Nat) (w : Warp) : Bool := w.loop.isSome || (ownJoin s g w == 0 && !w.joining)

def syncRaises (s : State) (w : Warp) : List TrapInfo :=
  let raise := fun (c : Bool) cause => if c then [raise1 s.issue.pc cause w.r.group.mask 0] else []
  raise (w.live != w.r.group.mask) 0x04A ++ raise (holdsToken s s.cur) 0x051 ++
  match w.record with
  | some r => if syncIdle s s.cur w then [] else writeRaise s w r.toNat 64
  | none => []

/-- The warp ends on this cluster: no lane of it issues again. -/
def State.endWarp (s : State) (g : Nat) (f : Warp → Warp) : State :=
  let s := (s.releaseTokens g).lapseMember g
  s.modWarp g fun w =>
    let w := f w
    { w with ended := true, r := { w.r with exited := w.enabled, groups := [], cur := 0, flight := [] } }

/-- SYNC (R218, R280): with children outstanding the record is written; then, where JOIN has become 0 meanwhile, the warp goes on in
place, and else it ends suspended. At a barrier of its team a suspended warp counts as an exited one (R212; log 96, DEDUCED). -/
def State.sync (s : State) (w : Warp) : State :=
  let g := s.cur
  let cl := clusterOf g
  match w.record with
  | none => s
  | some r =>
    let va := r.toNat
    if syncIdle s g w then s
    else
      let head := readField s cl w.who va 8
      let keep := head.2 / 2 ^ 56 % 16 * 2 ^ 56
      let pc := relPc s.issue.pc 1 % 2 ^ 56 / 32 * 32
      let s := (writeVa cl w.who head.1 va 16 (fieldAt 0 8 (pc + keep + 2 ^ 60) ++ fieldAt 8 8 w.frame)).1
      let s := (writeVa cl w.who s (va + 0x23) 1 (fieldAt 0 1 w.r.rd)).1
      let s := (writeVa cl w.who s (va + 0x28) 24 ((argWords w.r).zipIdx.flatMap fun e => fieldAt (4 * e.2) 4 e.1)).1
      let s := s.modWarp g fun w => { w with joining := false }
      if ownJoin s g w = 0 then s
      else
        let key := recKey w.ctx va
        let s := { s with suspended := key :: s.suspended }
        let first := !w.isTask || w.stage.isSome
        let s := if first then
            { s.modTeam w.team (fun t => { t with tasks := t.tasks + 1 }) with roots := tput s.roots key w.team } else s
        let s := (s.endWarp g fun w => { w with suspended := true }).modTeam w.team fun t =>
          { t with exited := t.exited ||| laneBit w.wid }
        s.checkBarriers w.team

/-! ### Allotments (R21, R222, R223) -/

/-- Warp slots that stage slots keep between two warps, with the allotment of their launch (R284). -/
def keptSlots (s : State) : List (Nat × Nat) :=
  s.teams.flatMap fun e => e.2.place.filterMap fun p =>
    if (tfind s.warps p.2).isNone then some (p.2, ((tfind s.launches e.2.launch).map (·.allot)).getD 0) else none

/-- Registers per lane of a sub-core that no resident warp has. -/
def freeRegs (s : State) (sub : Nat) : Nat :=
  1024 - (s.warps.filter fun e => subOf e.1 == sub).foldl (fun n e => n + e.2.r.allot) 0
    - ((keptSlots s).filter fun e => subOf e.1 == sub).foldl (fun n e => n + e.2) 0

/-- A result to one of the V registers from lo to hi is discarded; its class's latch still takes it (R18, R223). (log 27, DEDUCED) -/
def Result.discardFrom (lo hi : Nat) (q : Result) : Result :=
  match q.dest with
  | .v n => if lo ≤ n ∧ n < hi then { q with dest := .none } else q
  | _ => q

/-- V registers from lo to hi read zero and are full, and a group that waits for a full register looks again; results in flight
to them are discarded. -/
def Regs.clearFrom (r : Regs) (lo hi : Nat) : Regs :=
  { r with v := r.v.filter fun e => e.1 < 64 * lo ∨ 64 * hi ≤ e.1,
           pend := r.pend.filter fun e => e.1 < 64 * lo ∨ 64 * hi ≤ e.1,
           flight := r.flight.map (Result.discardFrom lo hi),
           groups := r.groups.map fun g => if g.wait = .empty then { g with wait := .ready } else g }

/-! ### Regions (R33, R224) -/

/-- ENTER pushes an id; above depth 15 it overwrites the oldest kept one (R33). -/
def Regs.pushRegion (r : Regs) (id : Nat) : Regs :=
  { r with rstk := BitVec.ofNat 16 id :: (if 15 < r.rsdepth then r.rstk.dropLast else r.rstk), rsdepth := r.rsdepth + 1 }
def Regs.popRegion (r : Regs) : Regs := { r with rstk := r.rstk.tail, rsdepth := r.rsdepth - 1 }

/-! ### Causes of the slot at issue (R205, R230, R231) -/

/-- Operations that a delay bundle may not hold (R205). -/
def forbiddenInDelay (i : Instr) : Bool :=
  match i with
  | .bra _ | .brd _ | .call _ | .ret _ | .join _ | .exit _ | .bar _ | .bara _ | .waitf _ | .yield _ | .fork _ | .sync _
  | .launch _ | .tlwait _ | .sleep _ | .trap _ | .rft _ | .kend _ => true
  | _ => false

/-- Operations that a routine may not hold (R188). -/
def forbiddenInRoutine (i : Instr) : Bool :=
  match i with
  | .bar _ | .bara _ | .fork _ | .sync _ | .yield _ | .kend _ => true
  | _ => false

def flagsIdle (w : Warp) (m : BitVec 8) : Bool := (List.range 8).any fun n => m.getLsbD n && flagIdle (w.flag n)
def flagsLeft (w : Warp) (m : BitVec 8) : Bool := (List.range 8).all fun n => !m.getLsbD n || (w.flag n).state != 0

/-- A 64-bit S pair, or four registers, of a control operand. -/
def ctl64 (w : Warp) (iss : Issue) (f : Ctl) : Nat := (src64 w iss 0 f.a.toNat (lowLane w.r.group.mask)).toNat

/-- Control-flow and synchronisation causes, and the value checks of class 0, of one control operation; those of LAUNCH,
RFT and the special registers stand with them. OVTLD raises 0x119 with an active lane only (log 82, DESIGN CHOICE). WAITF and YIELD see the
flags as they stand before a bind of the same bundle (log 92, DEDUCED). The value causes of FMTS, FORK and OVTLD need an active lane, that of
SHRINK does not (log 93, DESIGN CHOICE). -/
def flowRaises (s : State) (w : Warp) (i : Instr) (f : Ctl) : List TrapInfo :=
  let act := w.r.active f.g1 f.g2
  let grp := w.r.group.mask
  let pc := s.issue.pc
  let raise := fun (c : Bool) cause => if c then [raise1 pc cause grp 0] else []
  raise (w.r.group.pending.isSome && forbiddenInDelay i) 0x046 ++
  raise (inRoutine s s.cur w && forbiddenInRoutine i && act != 0) 0x0B3 ++
  (match i with
   | .bkpt _ => [{ cause := 0x120, id := f.imm.toNat, pc := pc.toNat, lanes := grp, va := 0, reasons := 0 }]
   | _ => []) ++
  (match i with
   | .shrink _ => raise (decide (w.r.allot < f.imm.toNat)) 0x01C
   | _ => []) ++
  if act = 0 then []
  else
    match i with
    | .bra _ => transferRaises s w i f
    | .brd _ => transferRaises s w i f
    | .call _ => transferRaises s w i f
    | .ret _ => transferRaises s w i f
    | .jset _ => raise (w.r.groups.any fun g => decide (g.wait = .join f.a.toNat)) 0x047
    | .join _ =>
      let q := w.r.joinReg f.a.toNat
      raise (!q.valid) 0x048 ++ raise (grp &&& ~~~q.expect != 0) 0x049
    | .exit _ => raise (inRoutine s s.cur w) 0x04F
    | .bar _ => barRaises s w f
    | .bara _ => barRaises s w f
    | .waitf _ => raise (flagsIdle w (f.imm.extractLsb' 0 8)) 0x0C5
    | .yield _ => raise (flagIdle (w.flag f.a.toNat)) 0x0C5
    | .fork _ => forkRaises s w f
    | .sync _ => syncRaises s w
    | .kend _ => raise (w.live != grp) 0x04A ++ raise w.loop.isNone 0x04B
    | .tlwait _ => if ctl64 w s.issue f % 8 ≠ 0 then [raise1 pc 0x080 grp (ctl64 w s.issue f)] else []
    | .fmts _ => raise (ctl64 w s.issue f / 2 ^ 40 != 0) 0x01C
    | .enter _ => raise (w.r.rsdepth == 255) 0x04C
    | .leave _ =>
      raise (w.r.rsdepth == 0) 0x04D ++
      raise (w.r.rsdepth != 0 && w.r.region 0 != f.imm.toNat && w.r.region 0 != 0xFFFF) 0x04E
    | .ovtld _ =>
      raise (w.level.num == 0) 0x119 ++
      raise (ctl64 w s.issue f / 2 ^ 20 != 0 || (List.range 10).any fun k => bitsOf (ctl64 w s.issue f) (2 * k) 2 == 3) 0x01C
    | _ => []

end Sys2Proof.Machine
end

