-- ==== Sys2Proof/Machine/SpecialRegs.lean ====
section
/-! DEFINITION. Special registers: what SRD reads and SWR writes (R35, R58, R81, R144, R225, R238, R276, R312, R331, R347,
R355, R360, R364 to R375, R377, R381, R387, R388), and the steps that some writes start. -/

namespace Sys2Proof.Machine

/-- One register: 64 bits wide or 32; the level that reads it; the level that writes it, none where no write takes effect
(R5). -/
structure SregInfo where
  wide : Bool
  read : Nat
  write : Option Nat
  deriving DecidableEq, Repr

/-- The register file of the part (R5, R35): RS registers are read and written at supervisor level, RH registers read and
written at hypervisor level only, RHS registers read at supervisor level; numbers not listed are assigned at no level. A
register with a status field beside a write-only one is read at supervisor level (log 31, DEDUCED), and a write-only one is
written by the level that its chapter names (log 32, DEDUCED). -/
def sregInfo (n : Nat) : Option SregInfo :=
  let ro := fun wide lv => some { wide := wide, read := lv, write := none : SregInfo }
  let rs := some { wide := true, read := 1, write := some 1 : SregInfo }
  let rh := fun wide => some { wide := wide, read := 2, write := some 2 : SregInfo }
  let rhs := some { wide := true, read := 1, write := some 2 : SregInfo }
  if n ≤ 2 then ro true 0
  else if n ≤ 5 then ro false 0
  else if n ≤ 7 then ro true 0
  else if n ≤ 0x00B then ro false 0
  else if n ≤ 0x00D then ro true 0
  else if n = 0x00E then ro false 0
  else if n = 0x00F ∨ n = 0x010 then ro true 0
  else if 0x018 ≤ n ∧ n ≤ 0x01F then ro false 0
  else if 0x1B0 ≤ n ∧ n ≤ 0x1C0 then ro true 1
  else if 0x1C8 ≤ n ∧ n ≤ 0x1DA then ro true 1
  else
    match n with
    | 0x120 => rhs
    | 0x122 => ro true 1
    | 0x130 | 0x131 | 0x140 | 0x141 | 0x150 | 0x151 => rs
    | 0x160 => some { wide := false, read := 1, write := some 1 }
    | 0x161 => ro false 1
    | 0x162 => rh false
    | 0x170 | 0x171 => rs
    | 0x172 | 0x173 => rh true
    | 0x178 | 0x179 => rs
    | 0x17A => ro true 1
    | 0x180 => rh true
    | 0x181 => ro true 1
    | 0x190 => rhs
    | 0x191 | 0x192 | 0x193 | 0x194 | 0x196 | 0x198 => ro true 1
    | 0x199 | 0x19A => rh true
    | 0x1A0 | 0x1A1 => rs
    | 0x1A2 => rh true
    | 0x1A3 => ro true 1
    | 0x1A4 => rs
    | 0x1A5 => ro true 1
    | 0x1A8 | 0x1A9 | 0x1AA | 0x1C7 => rs
    | 0x1E0 => rh true
    | 0x1E1 => rhs
    | 0x1E2 => rs
    | 0x1E3 => rhs
    | 0x1E4 => ro true 1
    | 0x1E5 => rhs
    | _ => none

def sregWide (n : Nat) : Bool := match sregInfo n with
  | some q => q.wide
  | none => false

/-! ### Reading (R35, R36, R225) -/

def permitCaps : List Nat := [256, 192, 128, 128]

/-- Refill rates of a mode (R359). -/
def permitRates (mode : Nat) : List Nat :=
  match mode with
  | 0 => [16, 12, 8, 8]
  | 1 => [20, 8, 4, 8]
  | 2 => [8, 8, 4, 16]
  | _ => [8, 8, 4, 8]

/-- The partition that owns a cluster; the hypervisor's number for its own and for an unowned one. -/
def permitWord (s : State) (g k : Nat) : Nat :=
  (s.sub (subOf g)).permits.getD k 0 + 2 ^ 16 * permitCaps.getD k 0 +
    2 ^ 32 * (permitRates (s.part (clusterPart s (clusterOf g))).mode).getD k 0

/-- Key slots that a partition uses on a die, under the hypervisor's grant (R312). -/
def keyWord (s : State) (part d : Nat) : Nat := keyQuota s part d + 2 ^ 16 * tget 0 (s.die d).usedKeys part

/-- EVSET of this part (R375). (log 10, DESIGN CHOICE) -/
def evset : Nat := 1

def sketchWord (s : State) (cl k : Nat) : Nat :=
  (sregGet s (sregKey (0x1A8 + k) cl) 0).toNat % 512 + 2 ^ 16 * (tget 0 (s.cluster cl).epoch k % 2 ^ 16)

/-- A value as SRD samples it at issue. (log 8, DESIGN CHOICE; log 10, DESIGN CHOICE) -/
def sregRead (s : State) (g : Nat) (w : Warp) (n : Nat) : Nat :=
  let d := dieOf g
  let cl := clusterOf g
  let kept := fun holder => (sregGet s (sregKey n holder) 0).toNat
  let perDie := (pdReg s n w.part d 0).toNat
  if 0x018 ≤ n ∧ n ≤ 0x01F then flagWord (w.flag (n - 0x018))
  else if 0x1B0 ≤ n ∧ n ≤ 0x1DA then tget 0 (s.sub (subOf g)).hist (n - 0x1B0)
  else
    match n with
    | 0x000 => timeOf s d
    | 0x001 => (s.cluster cl).cycle
    | 0x002 => s.issue.t
    | 0x003 => identOf g w.part
    | 0x004 => w.lnid.toNat
    | 0x005 => w.teamid.toNat
    | 0x006 => w.r.group.mask.toNat
    | 0x007 => w.r.exited.toNat
    | 0x008 => w.r.groups.length
    | 0x009 => w.level.num
    | 0x00A => w.r.allot
    | 0x00B => w.r.rd
    | 0x00C => w.r.fmt.toNat
    | 0x00D => w.r.rstkWord
    | 0x00E => w.r.rsdepth
    | 0x00F => (s.cluster cl).lreqRead
    | 0x010 => (s.cluster cl).rreqRead
    | 0x120 => (s.part w.part).feat.toNat
    | 0x122 => (ovtOf s w.ctx).toNat
    | 0x130 => w.lbase.toNat
    | 0x131 => w.lsize
    | 0x140 => kept w.ctx
    | 0x141 => kept w.ctx
    | 0x150 => kept cl
    | 0x151 => kept cl
    | 0x160 => kept w.part
    | 0x161 => keyWord s w.part d
    | 0x162 => clxb s
    | 0x180 => kept 0
    | 0x181 => s.elog
    | 0x190 => if cl = Config.hvCluster then kept 0 else (s.part w.part).mode + 2 ^ 8 * w.part
    | 0x191 => permitWord s g 0
    | 0x192 => permitWord s g 1
    | 0x193 => permitWord s g 2
    | 0x194 => permitWord s g 3
    | 0x196 => (s.cluster cl).freq
    | 0x198 => (s.part w.part).emeter
    | 0x199 => (sregGet s (sregKey 0x199 w.part) (BitVec.allOnes 64)).toNat
    | 0x19A => kept w.part
    | 0x1A3 => evset
    | 0x1A8 => sketchWord s cl 0
    | 0x1A9 => sketchWord s cl 1
    | 0x1E0 => kept 0
    | 0x1E1 => kept 0
    | 0x1E4 => kept 0
    | 0x179 => 0
    | 0x1AA => 0
    | 0x1E2 => 0
    | 0x1E3 => 0
    | 0x1E5 => 0
    | _ => perDie

/-! ### Writing -/

/-- The bits [hi:lo] of a value, in place. -/
def keepBits (v lo n : Nat) : DWord := BitVec.ofNat 64 (bitsOf v lo n * 2 ^ lo)

/-- SWR (R225): a plain register takes the bits of its map; a write that starts a step of the part puts it first. LSIZE keeps its
bits as written (log 78, DESIGN CHOICE), CSSIZE too where they are no multiple of 4,096 (log 97, DESIGN CHOICE). (log 32, DEDUCED; log 49, DEDUCED; log 50, DESIGN CHOICE) -/
def State.sregWrite (s : State) (g : Nat) (w : Warp) (n v : Nat) : State :=
  let d := dieOf g
  let cl := clusterOf g
  let dv := BitVec.ofNat 64 v
  let per := fun lo bits => s.setPdReg n w.part d 0 (keepBits v lo bits)
  let keep := fun holder lo bits => s.setSreg (sregKey n holder) 0 (keepBits v lo bits)
  match n with
  | 0x120 => s.setPart w.part { s.part w.part with feat := keepBits v 0 8 }
  | 0x130 => s.modWarp g fun w => { w with lbase := keepBits v 8 48 }
  | 0x131 => s.modWarp g fun w => { w with lsize := bitsOf v 0 18 }
  | 0x140 => keep w.ctx 12 40
  | 0x141 => (keep w.ctx 16 43).first [.tlbinvWrite g dv]
  | 0x150 => keep cl 12 44
  | 0x151 => keep cl 0 28
  | 0x160 => (keep w.part 0 12).first [.claimGroupDestroy w.part (v % 4096)]
  | 0x162 => s.setSreg (sregKey n 0) 8000 (keepBits v 0 32)
  | 0x170 => per 9 47
  | 0x171 => per 12 44
  | 0x172 => per 9 47
  | 0x173 => per 12 44
  | 0x178 => per 12 44
  | 0x179 =>
    (match v % 4 with
     | 1 => s.first [.pctlRestore g dv]
     | _ => s.first [.pctlSave g dv])
  | 0x180 => keep 0 12 48
  | 0x190 =>
    (if cl = Config.hvCluster then s.setSreg (sregKey n 0) 0 (BitVec.ofNat 64 (bitsOf v 0 2 + 2 ^ 8 * bitsOf v 8 5)) else s).first
      [.pmodeWrite dv]
  | 0x199 => (s.setSreg (sregKey n w.part) (BitVec.allOnes 64) dv).setPart w.part { s.part w.part with reported := false }
  | 0x19A =>
    let old := (sregGet s (sregKey n w.part) 0).toNat
    let still := if v.testBit 2 then 0 else bitsOf old 2 1
    s.setSreg (sregKey n w.part) 0 (BitVec.ofNat 64 (v % 4 + 4 * still))
  | 0x1A0 => if bitsOf v 1 2 = 3 then s else per 0 34
  | 0x1A1 => if 20 < bitsOf v 56 5 ∨ bitsOf v 0 56 % 2 ^ bitsOf v 56 5 ≠ 0 then s else per 0 61
  | 0x1A2 => s.first [.sessionRemap g dv]
  | 0x1A4 => per 12 49
  | 0x1A8 => s.first [.sketchEventWrite cl 0 dv]
  | 0x1A9 => s.first [.sketchEventWrite cl 1 dv]
  | 0x1AA => (s.modWarp g fun w => { w with dumps := tput w.dumps v s.issue.pc }).first [.sketchDump g dv]
  | 0x1C7 => s.first [.histogramClear (subOf g)]
  | 0x1E0 => keep 0 12 44
  | 0x1E1 =>
    if v.testBit 0 && bitsOf (sregGet s (sregKey n 0) 0).toNat 1 2 != 1 then
      (s.setSreg (sregKey n 0) 0 2).first [.hvcommitGo] else s
  | 0x1E2 => if bitsOf v 52 12 = 0 then s else s.first [.flushpaWrite dv]
  | 0x1E3 =>
    (match v % 4 with
     | 1 => s.first [.checkpointSave]
     | 2 => s.first [.checkpointRestore]
     | _ => s)
  | 0x1E5 => s.first [if v.testBit 0 then .attestQuote dv else .attestExtend dv]
  | _ => s

/-- What a write has replaced, for the return to a checkpoint. -/
def replaced (s t : State) (g : Nat) (part : Nat) : List Undo :=
  let keys := ((s.sreg ++ t.sreg).map (·.1)).dedup.filter fun k => tfind s.sreg k ≠ tfind t.sreg k
  let spill := match tfind s.warps g, tfind t.warps g with
    | some a, some b => if a.lbase = b.lbase ∧ a.lsize = b.lsize then [] else [Undo.spill a.lbase a.lsize]
    | _, _ => []
  keys.map (fun k => Undo.sreg k (tfind s.sreg k)) ++ spill ++
    (if (s.part part).feat = (t.part part).feat then [] else [.feat part (s.part part).feat]) ++
    if (s.part part).reported = (t.part part).reported then [] else [.reported part (s.part part).reported]

/-- The newest checkpoint takes what a write has replaced and the steps that it has started. -/
def noteLast (us : List Undo) (is : List Instr) : List Checkpoint → List Checkpoint
  | [] => []
  | [c] => [{ c with undo := us ++ c.undo, later := c.later ++ is }]
  | c :: t => c :: noteLast us is t

/-- A write of a special register; while a checkpoint stands it can be undone, and the steps that it starts wait (R346). (log 20, DEDUCED) -/
def State.sregWriting (s : State) (write : State → State) : State :=
  let t := write s
  match s.curWarp with
  | none => t
  | some w =>
    if !w.precise || w.checkpoint.isEmpty then t
    else
      let is := t.agenda.take (t.agenda.length - s.agenda.length)
      { t with agenda := s.agenda }.modWarp s.cur fun c =>
        { c with checkpoint := noteLast (replaced s t s.cur w.part) is c.checkpoint }

/-- Issue causes of SRD and SWR (R35, R225, R238): the number is assigned at the level, TLBINV's SCOPE is not reserved. -/
def sregIssueRaises (w : Warp) (pc : DWord) (i : Instr) (f : Ctl) : List TrapInfo :=
  let grp := w.r.group.mask
  let un := fun (n : Nat) => match sregInfo n with
    | none => true
    | some q => decide (w.level.num < q.read)
  match i with
  | .srd _ => if un f.imm.toNat then [raise1 pc 0x01D grp 0] else []
  | .swr _ => if un f.imm.toNat then [raise1 pc 0x01D grp 0] else []
  | _ => []

/-- Causes of SWR beside the issue causes: its level, whatever the guards (R225; log 82, DESIGN CHOICE). -/
def sregRaises (s : State) (w : Warp) (i : Instr) (f : Ctl) : List TrapInfo :=
  let pc := s.issue.pc
  let grp := w.r.group.mask
  match i with
  | .swr _ =>
    (match sregInfo f.imm.toNat with
     | some q => (match q.write with
       | some lv => if w.level.num < lv then [raise1 pc 0x11A grp 0] else []
       | none => [])
     | none => []) ++
    (if f.imm.toNat = 0x141 ∧ w.r.active f.g1 f.g2 ≠ 0 ∧ bitsOf (ctl64 w s.issue f) 57 2 = 3 then [raise1 pc 0x01C grp 0] else [])
  | _ => []

/-! ### The steps that writes start -/

/-- TLBINV (R238): the entries of the context that map the page, or all of them, in the TLBs of the scope. No walk is in
flight between steps. (log 24, DESIGN CHOICE) -/
def State.tlbInvalidate (s : State) (g : Nat) (v : DWord) : State :=
  match tfind s.warps g with
  | none => s
  | some w =>
    let page := bitsOf v.toNat 16 40 * 2 ^ 16
    let all := v.getLsbD 56
    let scope := bitsOf v.toNat 57 2
    let gone := fun e : TlbEntry => e.1 == w.ctx && (all || e.2.1 / 2 ^ e.2.2.1 == page / 2 ^ e.2.2.1)
    let hitC := fun c => if scope = 0 then c == clusterOf g else if scope = 1 then c / 80 == dieOf g else true
    let hitD := fun d => if scope = 0 then false else if scope = 1 then d == dieOf g else true
    let s := s.clusters.foldl (fun s e =>
      if hitC e.1 then s.modCluster e.1 (fun c => { c with tlb := c.tlb.filter fun x => !gone x }) else s) s
    s.dies.foldl (fun s e =>
      if hitD e.1 then s.modDie e.1 (fun c => { c with tlb := c.tlb.filter fun x => !gone x }) else s) s

/-- A write of EVENT clears the sketch and its EPOCH rises (R371). -/
def clearSketch (c : Cluster) (k : Nat) : Cluster :=
  { c with sketch := c.sketch.filter (fun e => e.1 / 4096 ≠ k), epoch := tset 0 c.epoch k ((tget 0 c.epoch k + 1) % 2 ^ 16) }

def State.sketchEventSet (s : State) (cl k : Nat) (v : DWord) : State :=
  (s.setSreg (sregKey (0x1A8 + k) cl) 0 (keepBits v.toNat 0 9)).modCluster cl fun c => clearSketch c k

/-- The events that this part counts (R371, R373). -/
def sketchCounts (code : Nat) : Bool := decide (code ≤ 4) || (decide (0x10 ≤ code) && decide (code ≤ 0x22))

/-- Both sketches as a dump writes them (R371). -/
def sketchImage (s : State) (cl : Nat) : Sparse :=
  let shown := fun k => sketchCounts (bitsOf (sregGet s (sregKey (0x1A8 + k) cl) 0).toNat 0 8)
  (List.range 8192).flatMap fun i =>
    fieldAt (4 * i) 4 (if shown (i / 4096) then (tget 0 (s.cluster cl).sketch i).toNat else 0xFFFFFFFF)

/-- Both sketches as 32 KiB (R371); a dump that a page refuses writes nothing and the warp takes the translation cause
(log 33, DEDUCED). -/
def State.dumpSketches (s : State) (g : Nat) (v : DWord) : State :=
  match tfind s.warps g with
  | none => s
  | some w =>
    let cl := clusterOf g
    let va := bitsOf v.toNat 12 44 * 4096
    let pc := tget 0 w.dumps v.toNat
    let s := s.modWarp g fun w => { w with dumps := terase w.dumps v.toNat }
    match writeVa cl w.who s va 32768 (sketchImage s cl) with
    | (s, none) => s
    | (s, some e) =>
      { s.deferFault g s.nextId (0x061 + 4 * e.1) pc 0 w.r.group.mask (BitVec.ofNat 64 e.2) with nextId := s.nextId + 1 }

def State.clearHistogram (s : State) (n : Nat) : State := s.modSub n fun x => { x with hist := [] }

/-- SESS (R375). -/
def State.remapSession (s : State) (g : Nat) (v : DWord) : State :=
  match tfind s.warps g with
  | none => s
  | some w =>
    let part := w.part
    let d := dieOf g
    if v.toNat % 2 ^ 16 = evset then s.setPdReg 0x1A2 part d 0 (keepBits v.toNat 0 32)
    else
      let s := (List.range 320).foldl (fun s cl =>
        if clusterOwned s part cl then s.modCluster cl (fun c => clearSketch (clearSketch c 0) 1) else s) s
      let s := s.setPdReg 0x1A2 part d 0 (BitVec.ofNat 64 (evset + 2 ^ 16 * ((bitsOf v.toNat 16 16 + 1) % 2 ^ 16)))
      s.warps.foldl (fun s e =>
        if e.2.part = part ∧ e.2.ended = false then
          (s.traceRecord e.1 e.2 e.2.r.group.pc.toNat e.2.r.rstkWord 6 0).modWarp e.1 fun w =>
            { w with notices := w.notices ++ [(0x124, evset)] }
        else s) s

/-- PMODE (R360): the mode takes effect at the next turn. -/
def State.setMode (s : State) (v : DWord) : State :=
  let p := bitsOf v.toNat 8 5
  if 23 < p then s else s.setPart p { s.part p with nextMode := bitsOf v.toNat 0 2 }

end Sys2Proof.Machine
end

