-- ==== Sys2Proof/Machine/Launch.lean ====
section
/-! DEFINITION. Launches, dealers, task starts, stage slots and completion (R37, R211, R220, R270 to R289, R392, R395). -/

namespace Sys2Proof.Machine

/-! ### The launch record (R270, R271) -/

def launchLats (r : List Byte) : List Nat := (List.range 4).map fun i => recField r (0x10 + i) 1

/-- Latencies within R65. -/
def latsOk (l : List Nat) : Bool := l.zipIdx.all fun e => decide (1 ≤ e.1) && decide (e.1 ≤ if e.2 = 3 then 31 else 15)

/-- The four sub-cores of a cluster could hold n warps of an allotment. -/
def subCoresHold (n allot : Nat) : Bool := decide (n ≤ 4 * min 16 (1024 / allot))

def entryOk (v : Nat) : Bool := v % 32 == 0 && canonical v

def usesMap (r : List Byte) : Bool := (recField r 0x15 1).testBit 1

/-- The field checks of R271 that need no other memory. -/
def launchOk (r : List Byte) : Bool :=
  let n := recField r
  let kind := n 0x14 1
  let allot := n 0xD 1
  entryOk (n 0 8) && decide (1 ≤ n 8 4) && decide (n 8 4 < 2 ^ 24) && decide (1 ≤ n 0xC 1) && decide (n 0xC 1 ≤ 64) &&
  allot % 16 == 0 && decide (16 ≤ allot) && decide (allot ≤ 192) && decide (n 0xE 1 ≤ 32) && decide (n 0xF 1 ≤ 64) &&
  decide (kind ≤ 2) && decide (n 0x15 1 < 4) && decide (n 0x16 1 < 4) && n 0x17 1 == 0 && subCoresHold (n 0xC 1) allot &&
  n 0x30 8 % 256 == 0 && canonical (n 0x30 8) && n 0x38 4 % 4 == 0 && decide (n 0x38 4 ≤ 131072) && n 0x3C 4 == 0 &&
  n 0x40 8 != 0 && n 0x48 8 % 64 == 0 && canonical (n 0x48 8) && n 0x70 16 == 0 &&
  (!usesMap r || (n 0x50 8 % 64 == 0 && canonical (n 0x50 8) && decide (n 8 4 ≤ 65536))) &&
  (match kind with
   | 0 => n 0x58 8 == 0 && n 0x60 8 == 0 && n 0x68 8 == 0
   | 1 => entryOk (n 0x58 8) && entryOk (n 0x60 8) && decide (1 ≤ n 0x68 8) && decide (n 0x68 8 < 2 ^ 32)
   | _ => canonical (n 0x58 8) && canonical (n 0x60 8) && decide (1 ≤ n 0x68 8) && decide (n 0x68 8 ≤ 8))

/-- Entry i of a stage table: descriptor address and entry bundle; a read that faults gives none (R284). -/
def stageEntry (s : State) (cl : Nat) (who : Who) (table i : Nat) : State × Option (Nat × Nat) :=
  match readRecord cl who s (table + 16 * i) 16 with
  | (s, .ok bs) => (s, some (recField bs 0 8, recField bs 8 8))
  | (s, .error _) => (s, none)

/-- The ring of a stage; none where it cannot be read. -/
def stageRing (s : State) (cl : Nat) (who : Who) (desc : Nat) : State × Option Ring :=
  match readRecord cl who s desc 64 with
  | (s, .ok bs) => (s, some (ringOf bs))
  | (s, .error _) => (s, none)

/-- Every stage descriptor passes the check of R284. -/
def stagesOk (cl : Nat) (who : Who) (table : Nat) : List Nat → State → State × Bool
  | [], s => (s, true)
  | i :: t, s =>
    match stageEntry s cl who table i with
    | (s, none) => (s, false)
    | (s, some e) =>
      match stageRing s cl who e.1 with
      | (s, none) => (s, false)
      | (s, some q) =>
        if e.1 % 64 == 0 && q.valid && q.stage == i && decide (q.low < q.high) && decide (q.high ≤ 2 ^ q.caplog) then
          stagesOk cl who table t s
        else (s, false)

/-- Pages that one map entry counts for each die (R274). -/
def mapCounts (cl : Nat) (who : Who) (va : Nat) : Nat → State → List Nat → State × List Nat
  | 0, s, c => (s, c)
  | n + 1, s, c =>
    match translate s cl who .read (va + 65536 * n) with
    | (s, .ok k) =>
      if keyKind k = 1 then mapCounts cl who va n s (c.set (homeOf k) (c.getD (homeOf k) 0 + 1)) else mapCounts cl who va n s c
    | (s, _) => mapCounts cl who va n s c

/-- The die of the highest count, the lower die on a tie; none when every count is zero. -/
def bestDie (c : List Nat) : Option Nat :=
  let m := c.foldl Nat.max 0
  if m = 0 then none else (List.range 4).find? fun d => c.getD d 0 == m

/-- The dealers of teams t on: (die, assigned by the map); none when the map cannot be read (R274). -/
def mapTeams (cl : Nat) (who : Who) (map : Nat) : Nat → Nat → State → State × Option (List (Nat × Bool))
  | 0, _, s => (s, some [])
  | n + 1, t, s =>
    match readRecord cl who s (map + 8 * t) 8 with
    | (s, .error _) => (s, none)
    | (s, .ok bs) =>
      let e := bytesToNat bs
      let c := mapCounts cl who (bitsOf e 16 40 * 65536) (bitsOf e 56 8 + 1) s [0, 0, 0, 0]
      let here := match bestDie c.2 with
        | some d => (d, true)
        | none => (t % 4, false)
      match mapTeams cl who map n (t + 1) c.1 with
      | (s, some l) => (s, some (here :: l))
      | (s, none) => (s, none)

/-- The launch that an accepted record describes. -/
def launchOf (r : List Byte) (part ctx : Nat) (lnid : Word) : Launch :=
  let n := recField r
  { part := part, ctx := ctx, lnid := lnid, entry := BitVec.ofNat 64 (n 0 8), teams := n 8 4, warps := n 0xC 1, allot := n 0xD 1,
    barriers := n 0xE 1, handles := n 0xF 1, lat := launchLats r, kind := n 0x14 1, precise := (n 0x15 1).testBit 0,
    prio := n 0x16 1, args := (List.range 6).map fun i => BitVec.ofNat 32 (n (0x18 + 4 * i) 4),
    lbase := BitVec.ofNat 64 (n 0x30 8), lsize := n 0x38 4, lanes := BitVec.ofNat 64 (n 0x40 8),
    compd := BitVec.ofNat 64 (n 0x48 8), body := BitVec.ofNat 64 (n 0x58 8), epi := BitVec.ofNat 64 (n 0x60 8), trip := n 0x68 8,
    dealt := [], finished := [], shares := [], failed := false, hot := [] }

/-- Launches of a partition that are accepted and not complete. -/
def launchesOf (s : State) (part : Nat) : Nat := (s.launches.filter fun e => e.2.part == part).length

/-- Hand the teams of a launch to the dealers, in ascending order. -/
def State.queueTeams (s : State) (id : Nat) (dies : List (Nat × Bool)) : State :=
  (List.range 4).foldl (fun s d => s.modDie d fun x =>
    { x with undealt := x.undealt ++ (dies.zipIdx.filterMap fun e => if e.1.1 = d then some (id, e.2, e.1.2) else none) }) s

/-- LAUNCH on a record that has been read: the status, and on acceptance the launch (R271). (log 4, DESIGN CHOICE) -/
def State.accept (s : State) (w : Warp) (cl : Nat) (r : List Byte) : State × Nat :=
  if !launchOk r then (s, 2)
  else
    let stages := if recField r 0x14 1 = 2 then stagesOk cl w.who (recField r 0x58 8) (List.range (recField r 0x68 8)) s else (s, true)
    if !stages.2 then (stages.1, 2)
    else
      let teams := recField r 8 4
      let q := if usesMap r then mapTeams cl w.who (recField r 0x50 8) teams 0 stages.1
        else (stages.1, some ((List.range teams).map fun t => (t % 4, false)))
      match q with
      | (s, none) => (s, 2)
      | (s, some dies) =>
        if 16 ≤ launchesOf s w.part then (s, 1)
        else
          let n := tget 1 s.lnidNext w.part
          let id := s.nextId
          let s := { s with lnidNext := tput s.lnidNext w.part ((n + 1) % 2 ^ 32), nextId := id + 1,
                            launches := tput s.launches id (launchOf r w.part w.ctx (BitVec.ofNat 32 n)) }
          (s.queueTeams id dies, 0)

/-- The launch record at va. -/
def launchRecord (s : State) (w : Warp) (va : Nat) : State × Except (Nat × Nat) (List Byte) :=
  s.atIssue fun s => readRecord (clusterOf s.cur) w.who s va 128

/-- Causes of LAUNCH at issue (R220): level, whatever the guards (log 82, DESIGN CHOICE), alignment, the read of the record, latencies, with an
active lane (log 93, DESIGN CHOICE). -/
def launchRaises (s : State) (w : Warp) (f : Ctl) : List TrapInfo :=
  let pc := s.issue.pc
  let grp := w.r.group.mask
  let va := ctl64 w s.issue f
  if w.level.num = 0 then [raise1 pc 0x118 grp 0]
  else if w.r.active f.g1 f.g2 = 0 then []
  else if va % 64 ≠ 0 then [raise1 pc 0x080 grp va]
  else
    match (launchRecord s w va).2 with
    | .error e => [raise1 pc (0x060 + 4 * e.1) grp e.2]
    | .ok r => if latsOk (launchLats r) then [] else [raise1 pc 0x01C grp 0]

/-- LAUNCH: the status of Sd arrives later. -/
def State.launch (s : State) (w : Warp) (f : Ctl) : State :=
  let cl := clusterOf s.cur
  match launchRecord s w (ctl64 w s.issue f) with
  | (s, .error _) => s
  | (s, .ok r) =>
    let q := s.accept w cl r
    q.1.issueReply s.cur (192 + f.imm.toNat) 1 w.r.group.mask (scalarVals [q.2]) true false

/-! ### A warp's first state (R37, R275, R281) -/

def freshRegs (lanes : Lanes) (pc : DWord) (allot : Nat) (args : List Word) : Regs :=
  { v := [], s := args.zipIdx.filterMap fun e => if e.1 = 0 then none else some (e.2, e.1), pend := [], p := [], b := [], latch := [],
    j := [], fmt := 0, rd := 0, rstk := [], rsdepth := 0, allot := allot, shadow := [], flight := [],
    groups := [{ mask := lanes, pc := pc, wait := .ready, pending := none }], cur := 0, exited := 0, wtime := 0, due := 0 }

/-- A warp of a launch before its own values are set. -/
def freshWarp (r : Regs) (lanes : Lanes) (part ctx team wid age : Nat) (lat : List Nat) : Warp :=
  { r := r, f := [], lat := lat, level := .user, precise := false, enabled := lanes, burst := 0, yieldHint := false, starved := false,
    faults := [], notices := [], memSeq := 0, record := none, isTask := false, tid := 0, loop := none, stage := none,
    prio := 0, age := age, launch := 0, lnid := 0, teamid := 0, team := team, wid := wid, part := part, ctx := ctx, lbase := 0,
    lsize := 0, ended := false, suspended := false, halted := false, handlers := [], checkpoint := [], stop := false,
    holdOp := [], holdEng := none, passed := 0 }

def freshTeam (launch : Nat) (index : Word) (cl part warps barriers handles : Nat) (isTask : Bool) : Team :=
  { launch := launch, index := index, die := cl / 80, cluster := cl, part := part, warps := warps, barriers := barriers,
    handles := handles, htab := [], bars := [], tables := [], live := [], exited := 0, isTask := isTask, bind := [], move := [],
    open_ := 0, cleared := 0, place := [], tasks := 0, parked := false }

/-! ### Places (R272, R395) -/

/-- Warp slot number: sub-core n, slot i. -/
def slotTaken (s : State) (g : Nat) : Bool := (tfind s.warps g).isSome || (keptSlots s).any fun e => e.1 == g

/-- A free slot of a sub-core with allotment space, next to places already chosen. -/
def freeSlot (s : State) (sub allot : Nat) (chosen : List Nat) : Option Nat :=
  let here := (chosen.filter fun g => subOf g == sub).length
  if (s.sub sub).noWarps || decide (freeRegs s sub < allot * (here + 1)) then none
  else ((List.range 16).map fun i => 16 * sub + i).find? fun g => !slotTaken s g && !chosen.contains g

/-- Places of warps w on: each on sub-core w mod 4 or the next that has room (R272). -/
def placeWarps (s : State) (cl allot : Nat) : Nat → Nat → List Nat → Option (List Nat)
  | 0, _, chosen => some chosen
  | n + 1, w, chosen =>
    match ([0, 1, 2, 3].map fun k => 4 * cl + (w + k) % 4).findSome? fun sub => freeSlot s sub allot chosen with
    | none => none
    | some g => placeWarps s cl allot n (w + 1) (chosen ++ [g])

def poolsFit (s : State) (cl barriers handles : Nat) : Bool :=
  let c := s.cluster cl
  decide (c.barriersUsed + barriers ≤ 256) && decide (c.handlesUsed + handles ≤ 1024)

def clusterTakes (s : State) (part cl : Nat) : Bool :=
  let c := s.cluster cl
  clusterOwned s part cl && !c.offline && !c.noTeams

/-- The lowest cluster of the partition on a die that can hold a team (R272). -/
def teamCluster (s : State) (q : Launch) (die : Nat) : Option (Nat × List Nat) :=
  ((List.range 80).map fun c => 80 * die + c).findSome? fun cl =>
    if clusterTakes s q.part cl && poolsFit s cl q.barriers q.handles then
      (placeWarps s cl q.allot q.warps 0 []).map fun l => (cl, l)
    else none

def State.takePools (s : State) (cl barriers handles : Nat) : State :=
  s.modCluster cl fun c => { c with barriersUsed := c.barriersUsed + barriers, handlesUsed := c.handlesUsed + handles, idle := 0,
                                    retention := false }

/-! ### Tasks start (R278, R281, R282) -/

/-- The launch that a record's LNID names in its partition. -/
def launchByLnid (s : State) (part lnid : Nat) : Option (Nat × Launch) :=
  s.launches.find? fun e => e.2.part == part && e.2.lnid.toNat == lnid

/-- Spill base of a task warp in slot g (R278). -/
def taskLbase (q : Launch) (g : Nat) : DWord := q.lbase + BitVec.ofNat 64 ((q.teams * q.warps + g) * 64 * q.lsize)

def taskHandles (s : State) (part lnid : Nat) : Nat := ((launchByLnid s part lnid).map fun e => e.2.handles).getD 0

/-- The record of a key as the part reads it. (log 42, DEDUCED; log 43, DEDUCED) -/
def recordAt (s : State) (cl part key : Nat) : State × Option TaskRec :=
  match readRecord cl { ctx := recCtx key, part := part, level := .supervisor } s (recVa key) 64 with
  | (s, .ok bs) => (s, some (readTask bs))
  | (s, .error _) => (s, none)

/-- A cluster can start a record as a one-warp team: its slot. -/
def taskPlace (s : State) (cl part : Nat) (r : TaskRec) : Option Nat :=
  if clusterTakes s part cl && poolsFit s cl 0 (taskHandles s part r.lnid) then
    (placeWarps s cl r.regs 1 0 []).bind fun l => l.head?
  else none

/-- Start a record in slot g. -/
def State.startTask (s : State) (cl part g key : Nat) (r : TaskRec) : State :=
  let tid := s.nextId
  let q := launchByLnid s part r.lnid
  let handles := taskHandles s part r.lnid
  let team := { freshTeam ((q.map (·.1)).getD 0) 0xFFFFFFFF cl part 1 0 handles true with live := [g], place := [(0, g)] }
  let pc := if r.resumed then pcOf r.pc else pcOf (((tfind s.dealt key).map (·.1)).getD r.pc)
  let regs := { freshRegs allLanes pc r.regs (r.args.map fun a => BitVec.ofNat 32 a) with rd := r.rd }
  let w := { freshWarp regs allLanes part (recCtx key) tid 0 (s.cluster cl).cycle ((List.range 4).map fun i => bitsOf r.lat (8 * i) 8) with
    record := some (BitVec.ofNat 64 (recVa key)), isTask := true, tid := BitVec.ofNat 32 (recVa key / 64), frame := r.frame, prio := r.prio,
    launch := (q.map (·.1)).getD 0, lnid := BitVec.ofNat 32 r.lnid, teamid := 0xFFFFFFFF,
    precise := (q.map fun e => e.2.precise).getD false, lbase := (q.map fun e => taskLbase e.2 g).getD 0,
    lsize := (q.map fun e => e.2.lsize).getD 0 }
  ({ s with teams := tput s.teams tid team, warps := tput s.warps g w, nextId := tid + 1 }).takePools cl 0 handles

/-- The kitty's records that belong to a partition: all of them, since a cluster has one owner. -/
def kittyPart (s : State) (cl : Nat) : Nat := clusterPart s cl

/-- TASK_START (R278): the owner takes from the bottom; the record is read in a slot of the partition (R291). -/
def State.taskStart (s : State) (cl : Nat) : State :=
  match (s.cluster cl).kitty with
  | [] => s
  | key :: rest =>
    let part := kittyPart s cl
    if !slotOpen s part then s else
    match recordAt s cl part key with
    | (s, none) => s
    | (s, some r) =>
      match taskPlace s cl part r with
      | none => s
      | some g => (s.modCluster cl fun c => { c with kitty := rest }).startTask cl part g key r

/-- A steal moves the oldest record that the thief's die may take (R279). -/
def stealable (s : State) (part die victim : Nat) : Option (Nat × TaskRec) :=
  (s.cluster victim).kitty.reverse.findSome? fun key =>
    match (recordAt s victim part key).2 with
    | none => none
    | some r => if victim / 80 = die || r.aff == 0xFF || r.aff == die then some (key, r) else none

/-- The fullest kitty of a partition on a die, ties to the lowest cluster. -/
def fullestKitty (s : State) (part die thief : Nat) : Option Nat :=
  let cs := (List.range 80).map fun c => 80 * die + c
  (cs.filter fun c => c ≠ thief && clusterOwned s part c && !(s.cluster c).kitty.isEmpty).foldl (fun (best : Option Nat) c =>
    match best with
    | none => some c
    | some b => if (s.cluster b).kitty.length < (s.cluster c).kitty.length then some c else best) none

/-- The heads of a dealer's queue: the first undealt team of each partition. (log 44, DEDUCED) -/
def dealerHeads (s : State) (die : Nat) : List (Nat × Launch × Nat × Bool) :=
  ((s.die die).undealt.foldl (fun (acc : List (Nat × Launch × Nat × Bool)) e =>
    match tfind s.launches e.1 with
    | none => acc
    | some q => if acc.any fun x => x.2.1.part == q.part then acc else acc ++ [(e.1, q, e.2.1, e.2.2)]) [])

/-- The cluster's own kitty fills its free slot before a team does (R278). -/
def ownStart (s : State) (cl : Nat) : Bool :=
  match (s.cluster cl).kitty with
  | [] => false
  | key :: _ => ((recordAt s cl (clusterPart s cl) key).2.bind fun r => taskPlace s cl (clusterPart s cl) r).isSome

/-- The die's dealer has a team for the cluster, which comes before a stolen record (R278). -/
def dealerServes (s : State) (cl : Nat) : Bool :=
  (dealerHeads s (cl / 80)).any fun e => (teamCluster s e.2.1 (cl / 80)).any fun p => p.1 == cl

/-- KITTY_STEAL (R278, R279): a cluster that can start nothing of its own and has no team to deal takes from its die, then from dies
d + 1, d + 2, d + 3, the first record that it can start. A request to a cluster in retention waits until it has left it (R363). -/
def State.kittySteal (s : State) (cl : Nat) : State :=
  let part := clusterPart s cl
  let die := cl / 80
  if ownStart s cl || part == Config.hvPartition || !slotOpen s part then s
  else
    match ([0, 1, 2, 3].map fun k => (die + k) % 4).findSome? fun d =>
      (fullestKitty s part d cl).bind fun v => (stealable s part die v).bind fun e => (taskPlace s cl part e.2).map fun g => (v, e, g) with
    | none => s
    | some (victim, (key, r), g) =>
      if dealerServes s cl then s
      else if (s.cluster victim).retention then s.modCluster victim fun c => { c with asked := true }
      else (s.modCluster victim fun c => { c with kitty := c.kitty.filter fun k => k ≠ key }).startTask cl part g key r

/-! ### Stage slots (R284, R286) -/

/-- Start a warp in stage slot w of a team whose record fits its cluster's segment. (log 42, DEDUCED) -/
def State.startStage (s : State) (tid slot : Nat) : State :=
  match tfind s.teams tid with
  | none => s
  | some t =>
    match tfind s.launches t.launch, tfind t.place slot with
    | some q, some g =>
      let who : Who := { ctx := q.ctx, part := q.part, level := .supervisor }
      let stage := tget 0 t.bind slot
      (match stageEntry s t.cluster who q.body.toNat stage, cactusFit s t.cluster 64 with
       | (s, some e), some a =>
         let rec_ : TaskRec :=
           { pc := e.2, kind := 2, prio := q.prio, resumed := false, frame := 0, parent := 0, join := 0, lnid := q.lnid.toNat,
             allot := q.allot, aff := 0xFF, stage := stage, rd := 0, lat := latWord q.lat, args := [] }
         let s := (writeVa t.cluster who (s.cactusTake t.cluster a 64) a 64 (taskBytes rec_)).1
         let args := q.args.take 4 ++ [BitVec.ofNat 32 e.1, BitVec.ofNat 32 (e.1 / 2 ^ 32)]
         let w := { freshWarp (freshRegs allLanes (pcOf e.2) q.allot args) allLanes q.part q.ctx tid slot (s.cluster t.cluster).cycle q.lat with
           record := some (BitVec.ofNat 64 a), isTask := true, tid := BitVec.ofNat 32 (a / 64), stage := some stage, prio := q.prio,
           launch := t.launch, lnid := q.lnid, teamid := t.index, precise := q.precise, lbase := taskLbase q g, lsize := q.lsize }
         let s := { s with warps := tput s.warps g w, dealt := tput s.dealt (recKey q.ctx a) (e.2, false) }
         s.modTeam tid fun t => { t with live := t.live ++ [g], cleared := t.cleared &&& ~~~laneBit slot,
                                         exited := t.exited &&& ~~~laneBit slot }
       | (s, _), _ => s)
    | _, _ => s

/-! ### Completion (R287 to R289) -/

/-- The signal of a level (0 team, 1 die, 2 launch) of a launch: counter, interrupt; a fault is logged (R289, R391). -/
def State.signal (s : State) (id level : Nat) : State :=
  match tfind s.launches id with
  | none => s
  | some q =>
    if q.failed || q.compd == 0 then s
    else
      let who : Who := { ctx := q.ctx, part := q.part, level := .supervisor }
      let cl := (((List.range 320).find? fun c => clusterOwned s q.part c)).getD Config.hvCluster
      let fail := fun (s : State) cause va => s.logError (cl / 80) cause 0 0 va q.lnid.toNat
      match readRecord cl who s q.compd.toNat 64 with
      | (s, .error e) => fail s (0x060 + 4 * e.1) e.2
      | (s, .ok d) =>
        let va := recField d (16 * level) 8
        let inc := recField d (16 * level + 8) 8
        let s := if va = 0 then s
          else if va % 8 ≠ 0 then fail s 0x080 va
          else if !canonical va then fail s 0x081 va
          else
            match translate s cl who .atomic va with
            | (s, .ok k) =>
              if isWindow k then
                { s with outbox := s.outbox ++ [.atomic (peerPlace s k).1 (peerPlace s k).2 0 8 inc 0] }
              else
                let r := s.homeRead k 8
                r.1.homeWrite k (natToBytes 8 (bytesToNat r.2 + inc))
            | (s, .fault e) => fail s (0x062 + 4 * e) va
            | (s, .miss) => s
        if (recField d 0x30 1).testBit level then s.interrupt 0 q.lnid level else s

/-- The shares and the launch that are complete now (R287). -/
def State.checkLaunch (s : State) (id : Nat) : State :=
  match tfind s.launches id with
  | none => s
  | some q =>
    if (List.range 4).any fun d => (s.die d).undealt.any fun e => e.1 == id then s
    else
      let ready := (List.range 4).filter fun d => !q.shares.contains d && tget 0 q.dealt d == tget 0 q.finished d
      let s := ready.foldl (fun s d => (s.modLaunch id fun q => { q with shares := d :: q.shares }).signal id 1) s
      if q.shares.length + ready.length = 4 then
        let s := s.signal id 2
        { s with launches := terase s.launches id }
      else s

/-- The team's resources return (R288): handles, handle table, barriers, tables. -/
def State.returnTeam (s : State) (tid : Nat) : State :=
  match tfind s.teams tid with
  | none => s
  | some t =>
    let s := (t.htab.map (·.1)).foldl (fun s h => s.freeHandle tid t.cluster t.part h none) s
    let s := s.modTeam tid fun t => { t with tables := [], bars := [] }
    s.modCluster t.cluster fun c =>
      { c with barriersUsed := c.barriersUsed - t.barriers, handlesUsed := c.handlesUsed - t.handles }

/-- The team has no warp, or for a stage launch no open slot. -/
def Team.empty (t : Team) : Bool := t.live.isEmpty && t.open_ == 0 && !t.parked

/-- TEAM_COMPLETE (R287), in a slot of the team's partition (R291). -/
def State.completeTeam (s : State) (tid : Nat) : State :=
  match tfind s.teams tid with
  | none => s
  | some t =>
    if !t.empty || t.tasks != 0 || !slotOpen s t.part then s
    else
      let s := { s with teams := terase s.teams tid }
      if t.isTask then s
      else
        let s := s.signal t.launch 0
        (s.modLaunch t.launch fun q => { q with finished := tset 0 q.finished t.die (tget 0 q.finished t.die + 1) }).checkLaunch t.launch

/-- The warp that a slot starts after it has read the stop word at `.dev` scope (R284). -/
def State.acquireStop (s : State) (cl g : Nat) (who : Who) (epi : DWord) : State :=
  match (tfind s.warps g).isSome, (xlateRange cl who .read s epi.toNat 4).2 with
  | true, .ok ps => s.acquireAt g allLanes 3 ps
  | _, _ => s

/-- An exited slot reads the stop word or has closed; with room it starts again (STAGE_SLOT_RESTART, R284 to R286). -/
def State.restartStage (s : State) (tid slot : Nat) : State :=
  match tfind s.teams tid with
  | none => s
  | some t =>
    match tfind s.launches t.launch, tfind t.place slot with
    | some q, some g =>
      if (tfind s.warps g).isSome || !t.open_.getLsbD slot || (tfind s.preempts tid).isSome || !slotOpen s t.part then s
      else
        let who : Who := { ctx := q.ctx, part := q.part, level := .supervisor }
        let start := fun s : State => (s.startStage tid slot).acquireStop t.cluster g who q.epi
        if t.cleared.getLsbD slot then start s else
        let r := readField s t.cluster who q.epi.toNat 4
        if r.2 = 0 then
          let s := r.1.modTeam tid fun t =>
            { t with cleared := t.cleared ||| laneBit slot, bind := tset 0 t.bind slot (tget (tget 0 t.bind slot) t.move slot),
                     move := terase t.move slot }
          start s
        else
          let s := r.1.modTeam tid fun t => { t with open_ := t.open_ &&& ~~~laneBit slot, place := terase t.place slot }
          (match tfind s.teams tid with
           | some t => if t.empty then s.returnTeam tid else s
           | none => s)
    | _, _ => s

/-! ### The end of a warp (R211, R287, R392) -/

/-- Accounts of a warp that has exited: its task's end, or the children that it leaves (R211, R276, R287). -/
def State.settleTask (s : State) (g : Nat) (w : Warp) : State :=
  match w.record with
  | none => s
  | some r =>
    if w.isTask then s.endTask (clusterOf g) w
    else
      let n := ownJoin s g w
      if n = 0 then s.cactusFree w.part r.toNat
      else { s.modTeam w.team (fun t => { t with tasks := t.tasks + n }) with
             orphans := tput s.orphans (recKey w.ctx r.toNat) w.team }

/-- The end of a warp waits: an operation is in flight, a store that its accesses have seen is not at its home (R211, R259), or the
decrement could find no room in the kitty (R278, R280). -/
def endWaits (s : State) (g : Nat) (w : Warp) : Bool :=
  warpBusy s g || !sawDone s w 4 ||
    (w.isTask && !w.halted && !w.suspended && w.parent != 0 && decide (512 ≤ (s.cluster (clusterOf g)).kitty.length))

/-- WARP_SLOT_RELEASE (R211, R392): everything that the warp issued is complete and reported. -/
def State.releaseSlot (s : State) (g : Nat) : State :=
  match tfind s.warps g with
  | none => s
  | some w =>
    if !w.ended || endWaits s g w || !slotOpen s w.part then s
    else
      let s := if w.halted || w.suspended then s else s.settleTask g w
      let s := { s with warps := terase s.warps g }
      match tfind s.teams w.team with
      | none => s
      | some t =>
        let stage := w.stage.isSome && t.open_.getLsbD w.wid
        let t := { t with live := if w.halted then t.live else t.live.filter fun x => x ≠ g,
                          place := if stage then t.place else terase t.place w.wid }
        let s := { s with teams := tput s.teams w.team t }
        if t.empty then s.returnTeam w.team else s

/-! ### Dealing (R272, R273, R275) -/

/-- Warp i of team t of a launch. -/
def launchWarp (q : Launch) (id tid team i age : Nat) : Warp :=
  let pc := pcOf q.entry.toNat
  { freshWarp (freshRegs q.lanes pc q.allot q.args) q.lanes q.part q.ctx tid i age q.lat with
    prio := q.prio, launch := id, lnid := q.lnid, teamid := BitVec.ofNat 32 team, precise := q.precise,
    lbase := q.lbase + BitVec.ofNat 64 ((team * q.warps + i) * 64 * q.lsize), lsize := q.lsize,
    loop := if q.kind = 1 then some { iter := 0, trip := q.trip, body := q.body, epi := q.epi, closed := false } else none }

/-- Deal a team whole to a cluster: the read-only L1 discards for the first team of a launch there (R142). -/
def State.dealTo (s : State) (id : Nat) (q : Launch) (team cl : Nat) (gs : List Nat) : State :=
  let die := cl / 80
  let s := s.modCluster cl fun c =>
    if c.teamsSeen.contains id then c else { c with ro := [], teamsSeen := id :: c.teamsSeen }
  let tid := s.nextId
  let stage := q.kind = 2
  let t := { freshTeam id (BitVec.ofNat 32 team) cl q.part q.warps q.barriers q.handles false with
    place := gs.zipIdx.map fun e => (e.2, e.1), live := if stage then [] else gs,
    open_ := if stage then maskOf fun i => decide (i < q.warps) else 0,
    cleared := if stage then maskOf fun i => decide (i < q.warps) else 0,
    bind := if stage then gs.zipIdx.filterMap (fun e => if e.2 % q.trip = 0 then none else some (e.2, e.2 % q.trip)) else [] }
  let s := ({ s with teams := tput s.teams tid t, nextId := tid + 1 }).takePools cl q.barriers q.handles
  let s := s.modLaunch id fun q => { q with dealt := tset 0 q.dealt die (tget 0 q.dealt die + 1) }
  let s := if stage then (List.range q.warps).foldl (fun s i => s.startStage tid i) s
    else gs.zipIdx.foldl (fun s e => s.setWarp e.1 (launchWarp q id tid team e.2 (s.cluster cl).cycle)) s
  s.checkLaunch id

/-- DEALER_DEAL_TEAM (R272); the cluster's own kitty comes first (R278). (log 44, DEDUCED) -/
def State.dealTeam (s : State) (die : Nat) : State :=
  match ((dealerHeads s die).filter fun e => slotOpen s e.2.1.part).findSome? fun e => (teamCluster s e.2.1 die).map fun p => (e, p) with
  | none => s
  | some (e, cl, gs) =>
    if ownStart s cl then s
    else (s.modDie die fun d => { d with undealt := d.undealt.filter fun x => !(x.1 == e.1 && x.2.1 == e.2.2.1) }).dealTo e.1 e.2.1 e.2.2.1 cl gs

/-- The team that a dealer would steal for a partition: the oldest launch with a stealable team, the first dealer in order,
its highest-numbered one (R273). -/
def stealTeam (s : State) (die part : Nat) : Option (Nat × Launch × Nat × Nat) :=
  (s.launches.filter fun e => e.2.part == part).findSome? fun e =>
    ([1, 2, 3].map fun k => (die + k) % 4).findSome? fun d =>
      match ((s.die d).undealt.filter fun x => x.1 == e.1 && !x.2.2).getLast? with
      | some x => some (e.1, e.2, x.2.1, d)
      | none => none

/-- DEALER_STEAL (R273): for a partition of which this dealer holds no undealt team. -/
def State.dealerSteal (s : State) (die : Nat) : State :=
  match (List.range 24).findSome? fun part =>
    if !slotOpen s part || (dealerHeads s die).any fun e => e.2.1.part == part then none
    else (stealTeam s die part).bind fun e => (teamCluster s e.2.1 die).map fun p => (e, p) with
  | none => s
  | some ((id, q, team, victim), cl, gs) =>
    if ownStart s cl then s
    else (s.modDie victim fun d => { d with undealt := d.undealt.filter fun x => !(x.1 == id && x.2.1 == team) }).dealTo id q team cl gs

/-! ### The governor (R285) -/

structure StageLoad where
  occ : Nat
  high : Nat
  low : Nat

/-- Occupancies of the stages of a launch; a descriptor that cannot be read counts as empty. (log 43, DEDUCED) -/
def stageLoads (s : State) (cl : Nat) (q : Launch) : List StageLoad :=
  let who : Who := { ctx := q.ctx, part := q.part, level := .supervisor }
  (List.range q.trip).map fun i =>
    match (stageEntry s cl who q.body.toNat i).2 with
    | none => { occ := 0, high := 1, low := 0 }
    | some e =>
      match (stageRing s cl who e.1).2 with
      | none => { occ := 0, high := 1, low := 0 }
      | some r => { occ := (r.tail + 2 ^ 64 - r.head) % 2 ^ 64, high := r.high, low := r.low }

/-- The greatest of a list by a measure, the first on a tie. -/
def greatest (f : Nat → Nat) (l : List Nat) : Option Nat :=
  l.foldl (fun (best : Option Nat) x => match best with
    | none => some x
    | some b => if f b < f x then some x else best) none

def Team.boundTo (t : Team) (stage : Nat) : List Nat :=
  (t.place.map (·.1)).filter fun w => t.open_.getLsbD w && tget 0 t.bind w == stage

/-- One team's move at a turn: the donor's highest slot without a pending move. -/
def Team.govern (t : Team) (loads : List StageLoad) (hot : List Nat) : Team :=
  let occ := fun i => (loads[i]?.map (·.occ)).getD 0
  let cold := (List.range loads.length).filter fun i => !hot.contains i && decide (2 ≤ (t.boundTo i).length)
  match greatest occ hot, greatest (fun i => (t.boundTo i).length) cold with
  | some r, some d =>
    (match ((t.boundTo d).filter fun w => (tfind t.move w).isNone).getLast? with
     | some w => { t with move := tput t.move w r }
     | none => t)
  | _, _ => t

/-- The governor of every stage launch at the start of a turn. -/
def State.governor (s : State) : State :=
  s.launches.foldl (fun s e =>
    if e.2.kind ≠ 2 then s
    else
      let cl := ((s.teams.find? fun t => t.2.launch == e.1).map fun t => t.2.cluster).getD Config.hvCluster
      let loads := stageLoads s cl e.2
      let hot := (loads.zipIdx.filter fun x => decide (x.1.high ≤ x.1.occ) || (decide (x.1.low < x.1.occ) && e.2.hot.contains x.2)).map (·.2)
      let s := s.modLaunch e.1 fun q => { q with hot := hot }
      s.teams.foldl (fun s t => if t.2.launch = e.1 then s.modTeam t.1 fun t => t.govern loads hot else s) s) s

end Sys2Proof.Machine
end

