-- ==== Sys2Proof/Machine/Return.lean ====
section
/-! DEFINITION. RFT: what it reads and checks, the replay of faulted lanes, the waits that it tests again (R164, R229, R343,
R344). -/

namespace Sys2Proof.Machine

/-- A reader of n bytes at va; none where some page of them cannot be read, or a peer refuses to answer (R390). -/
def areaReader (n : Nat) (s : State) (cl : Nat) (who : Who) (va : Nat) : State × Option SaveReader :=
  match xlateRange cl who .read s va n with
  | (s, .error _) => (s, none)
  | (s, .ok ps) =>
    match s.readPieces ps 0 with
    | (s, some _) => (s, none)
    | (s, none) => (s, some fun off n => bytesToNat ((List.range n).map fun i => clusterByte s cl (pieceKey ps (off + i))))

/-- A reader of the save area at va. -/
def saveReader (s : State) (cl : Nat) (who : Who) (va : Nat) : State × Option SaveReader :=
  s.atIssue fun s => areaReader 0xB000 s cl who va

/-- The memory opcodes of rings are disabled in a partition without feature QUEUE (R58): an issue error of a record. -/
def replayFeature (s : State) (part : Nat) (rd : SaveReader) (i : Nat) : Bool :=
  let op := rd (0x4A00 + 1568 * i) 8 / 2 ^ 56
  (op != 0x11 && op != 0x12) || (s.part part).feat.getLsbD 2

/-- Causes of RFT at issue (R229, R343): level, whatever the guards (log 82, DESIGN CHOICE), and the area (log 34, DEDUCED). -/
def rftRaises (s : State) (w : Warp) (f : Ctl) : List TrapInfo :=
  let pc := s.issue.pc
  let grp := w.r.group.mask
  let va := ctl64 w s.issue f
  if w.level.num = 0 then [raise1 pc 0x11B grp 0]
  else if w.r.active f.g1 f.g2 = 0 then []
  else
    (if va % 4096 ≠ 0 then [raise1 pc 0x087 grp va]
     else
       match saveReader s (clusterOf s.cur) w.who va with
       | (_, none) => [raise1 pc 0x088 grp va]
       | (s, some rd) =>
         if saveCheck rd w.level && (List.range (bitsOf (rd 0 8) 24 5)).all (replayFeature s w.part rd) then []
         else [raise1 pc 0x088 grp va]) ++
    (if w.live = grp then [] else [raise1 pc 0x0C8 grp 0])

/-! ### Replay (R164) -/

/-- A replay record as RFT finds it. -/
structure ReplayRec where
  syl : DWord
  lanes : Lanes
  seq : Nat
  addr : Table DWord
  data : Table (BitVec 128)
  deriving DecidableEq, Repr

def readReplay (rd : SaveReader) (memBase i : Nat) : ReplayRec :=
  let off := 0x4A00 + 1568 * i
  let m := BitVec.ofNat 64 (rd (off + 8) 8)
  { syl := BitVec.ofNat 64 (rd off 8), lanes := m, seq := memBase + rd (off + 0x10) 8,
    addr := laneTable 0 m fun l => BitVec.ofNat 64 (rd (off + 0x20 + 8 * l) 8),
    data := laneTable 0 m fun l => BitVec.ofNat 128 (rd (off + 0x220 + 16 * l) 16) }

/-- The registers of abandoned lanes become full with what they hold. -/
def Regs.abandonLanes (r : Regs) (id code words : Nat) (m : Lanes) : Regs :=
  { r with pend := r.pend.filter fun e =>
      e.2 ≠ id + 1 || !(List.range words).any fun k =>
        if code < 192 then decide (64 * (code + k) ≤ e.1) && decide (e.1 < 64 * (code + k) + 64) && m.getLsbD (e.1 % 64)
        else decide (e.1 = sKey (code - 192 + k)) && m != 0 }

/-- Lanes m of an operation will not be performed: they count as done and deliver nothing. -/
def State.abandonLanes (s : State) (id : Nat) (m : Lanes) : State :=
  match tfind s.mops id with
  | none => s
  | some o =>
    let s := s.modWarp o.warp fun w => { w with r := w.r.abandonLanes id o.dest o.words (o.recLanes m) }
    s.putOp id { o with faulted := o.faulted &&& ~~~m, team := o.team ||| m, die := o.die ||| m, sys := o.sys ||| m, dl := o.dl ||| m }

/-- The operation of a record with the lanes that it performs again, translated anew, and the result register that the record names. -/
def replayOp (o : MemOp) (m : MemForm) (sc : Bool) (level : Level) (dest : Nat) (q : ReplayRec) : MemOp :=
  let again := if sc then laneBit (lowLane q.lanes) else q.lanes
  let keep := o.lanes &&& ~~~o.faulted &&& ~~~again
  let old := fun (m : Lanes) => m &&& keep
  { o with
    syl := q.syl, kind := m.kind, size := m.size, signed := m.signed, ro := m.ro, scalar := sc, lanes := keep ||| again,
    scope := m.scope, fn := m.fn, wide := m.wide, dest := dest, words := m.dst, level := level, spill := m.spill,
    addr := (laneList again).foldl (fun t l => tset 0 t l (tget 0 q.addr l)) o.addr,
    data := (laneList again).foldl (fun t l => tset 0 t l (tget 0 q.data l)) o.data,
    pa := o.pa.filter fun e => !again.getLsbD (e.1 / 4), xlated := old o.xlated ||| (if m.tile then again else 0),
    team := old o.team, die := old o.die, sys := old o.sys, faulted := 0, cause := 0, dl := old o.dl }

/-- The operand code of a record's result. -/
def replayDest (m : MemForm) (f : Syl) : Nat := if m.dst = 0 then 244 else f.d.toNat

/-- The record names another result than the operation: what has been performed is delivered as it was issued, and the registers that
wait for the lanes performed again become full with what they hold, for a replay writes only registers that wait for it (R164). -/
def State.redirect (s : State) (id dest words : Nat) (again : Lanes) : State :=
  match tfind s.mops id with
  | none => s
  | some o =>
    if o.dest = dest ∧ o.words = words then s
    else
      let s := s.deliverOp id o
      s.modWarp o.warp fun w => { w with r := w.r.abandonLanes id o.dest o.words (o.recLanes again) }

/-- A record whose operation is no longer in flight: it performs, and delivers to no register. -/
def freshReplay (s : State) (g : Nat) (w : Warp) (i : Instr) (f : Syl) (m : MemForm) (sc : Bool) (q : ReplayRec) : MemOp :=
  let o : MemOp :=
    { warp := g, seq := q.seq, pc := s.issue.pc, syl := q.syl, kind := m.kind, size := m.size, signed := m.signed, ro := m.ro,
      scalar := sc, lanes := 0, act := q.lanes, scope := m.scope, fn := m.fn, wide := m.wide,
      dest := replayDest m f, words := m.dst, level := w.level, ctx := w.ctx, part := w.part,
      cluster := clusterOf g, spill := m.spill, addr := [], data := [], pa := [], xlated := 0, team := 0, die := 0, sys := 0,
      faulted := 0, cause := 0, watch := 0, vals := [], dl := 0, cover := [], stamps := [],
      handle := if m.tile then (match handleOf s w f.a.toNat with
        | some h => h.gen
        | none => 0) else 0, takesEntry := true }
  let _ := i
  replayOp o m sc w.level (replayDest m f) q

/-- Perform a record: the operation of its sequence number takes its lanes up again. -/
def State.replay (s : State) (g : Nat) (q : ReplayRec) : State :=
  match decodeSyllable .memory q.syl, tfind s.warps g with
  | .ok i, some w =>
    (match view i, memForm i, shape i with
     | .syl _ _ f, some m, some h =>
       if q.lanes = 0 then s
       else
         let sc := memScalar i h f
         (match s.mops.find? fun e => e.2.warp == g && e.2.seq == q.seq && e.2.faulted != 0 with
          | some (id, o) =>
            let again := if o.whole then o.lanes else q.lanes
            let s := if o.faulted &&& ~~~again = 0 then s else s.abandonLanes id (o.faulted &&& ~~~again)
            let s := s.redirect id (replayDest m f) m.dst again
            (match tfind s.mops id with
             | some o => { s with mops := tput s.mops id (replayOp o m sc w.level (replayDest m f) q) }
             | none => s)
          | none =>
            { s with mops := tput s.mops s.nextId (freshReplay s g w i f m sc q), nextId := s.nextId + 1 })
     | _, _, _ => s)
  | _, _ => s

/-- Faulted operations of a level, and those that the area lists, are discarded where no record took them up (R343). -/
def State.discardFaults (s : State) (g : Nat) (level : Level) (listed : List Nat) : State :=
  (s.mops.filter fun e => e.2.warp == g && (e.2.level == level || listed.contains e.2.seq) && e.2.faulted != 0).foldl
    (fun s e => s.abandonLanes e.1 e.2.faulted) s

/-- Registers whose writer is no longer in flight become full. (log 39, DEDUCED) -/
def State.fillOrphans (s : State) (g : Nat) : State :=
  s.modWarp g fun w => { w with r := { w.r with pend := w.r.pend.filter fun e =>
    (tfind s.mops (e.2 - 1)).isSome || (tfind s.replies (e.2 - 1)).isSome } }

/-- The waits tested again at the return (R343 step 4). -/
def State.retestWaits (s : State) (g : Nat) : State :=
  let s := (s.modWarp g fun w => { w with r := (List.range 8).foldl (fun r j => r.completeJoin j) w.r }).testFlags g
  match tfind s.warps g with
  | none => s
  | some w =>
    let phase := fun b => ((tfind s.teams w.team).map fun t => (t.bar b).phase).getD 0
    let look := fun (q : Group) => match q.wait with
      | .barrier b p => if phase b = p then q else { q with wait := Wait.ready }
      | .empty => { q with wait := Wait.ready }
      | _ => q
    let s := s.modWarp g fun w => { w with r := { w.r with groups := w.r.groups.map look } }
    (List.range w.r.groups.length).foldl (fun s i => s.retestTime g i) s

/-- RFT (R343, R344), after its bundle: U is the due warp time of the first bundle after the return. -/
def State.rft (s : State) (w : Warp) (f : Ctl) : State :=
  let g := s.cur
  match saveReader s (clusterOf g) w.who (ctl64 w s.issue f) with
  | (s, none) => s
  | (s, some rd) =>
    let U := s.issue.t + 1 + s.issue.gap
    let from_ := (w.handlers.head?.map fun h => h.level).getD (Level.ofNum (bitsOf (rd 0 8) 8 2))
    let listed := (List.range (bitsOf (rd 0 8) 24 5)).map (readReplay rd w.memBase)
    let recs := if f.imm.getLsbD 0 then listed else []
    let s := s.traceRecord g w s.issue.pc.toNat w.r.rstkWord 1 0
    let s := s.modWarp g fun w =>
      let w := restoreWarp rd w U
      { w with r := { w.r with due := U } }
    let s := recs.foldl (fun s q => s.replay g q) s
    (((s.discardFaults g from_ (listed.map fun q => q.seq)).fillOrphans g).retestWaits g)

end Sys2Proof.Machine
end

