-- ==== Sys2Proof/Machine/Checks.lean ====
section
/-! DEFINITION. The checks made at issue (R34, R42, R55, R57, R58, R334), permit costs (R357), the holds of a bundle (R20,
R24, R101, R138, R172, R185, R202, R218, R346), and how a syllable's meaning runs. -/

namespace Sys2Proof.Machine

/-! ### Issue reasons (R55, R58) -/

/-- The FEAT bit that gates an instruction (R58). -/
def featureBit (i : Instr) : Option Nat :=
  match view i with
  | .syl .vector op _ => if 0x30 ≤ op ∧ op ≤ 0x35 then some 0 else if 0x48 ≤ op ∧ op ≤ 0x4E then some 1 else none
  | .syl .memory op _ => if op = 0x11 ∨ op = 0x12 then some 2 else none
  | .syl .engine op _ =>
    if 1 ≤ op ∧ op ≤ 5 then some 3 else if 0x10 ≤ op ∧ op ≤ 0x16 then some 4 else if 0x20 ≤ op ∧ op ≤ 0x26 then some 5
    else if 0x30 ≤ op ∧ op ≤ 0x34 then some 6 else none
  | .ctl op _ => if op = 0x0E ∨ op = 0x0F ∨ op = 0x1E then some 7 else none
  | _ => none

def featureOff (s : State) (part : Nat) (i : Instr) : Bool :=
  match featureBit i with
  | some b => !(s.part part).feat.getLsbD b
  | none => false

/-- The instruction names `%imm`. -/
def namesImm (i : Instr) : Bool :=
  match view i, shape i with
  | .syl _ _ f, some h => h.namesCode f codeImm
  | _, _ => false

/-- Reasons that depend on more than the fields: `%imm`, VCVT's widths, formats, features, special-register numbers. -/
def dynamicReasons (s : State) (w : Warp) (i : Instr) : List Nat :=
  let fmt := w.r.fmt
  reasonIf 3 (namesImm i && !s.issue.immOk) ++ reasonIf 7 (featureOff s w.part i) ++
  match i with
  | .vcvt f =>
    reasonIf 6 (reservedFmt (fmtField fmt 0) || reservedFmt (fmtField fmt 8)) ++
    (match shapeAt i fmt with
     | some h => sylReasons .vector h f
     | none => [])
  | .srd f => if (sregIssueRaises w s.issue.pc i f).isEmpty then [] else [5]
  | .swr f => if (sregIssueRaises w s.issue.pc i f).isEmpty then [] else [5]
  | _ => reasonIf 6 ((matFmts i fmt).any reservedFmt)

def slotNum : Slot → Nat
  | .vector => 0
  | .memory => 1
  | .engine => 2
  | .control => 3

/-- The cause of one syllable, with its lowest reason. -/
def slotCause (slot : Slot) (reasons : List Nat) : Option Nat := (minReason reasons).map fun r => 8 * slotNum slot + r

/-- The issue cause of a bundle: the lowest slot that fails (R57). -/
def issueCause (s : State) (w : Warp) (bits : BitVec 256) : Option Nat :=
  ([Slot.vector, Slot.memory, Slot.engine, Slot.control].zipIdx.filterMap fun e =>
    let word := syllableOf bits e.2
    match rawSyllable e.1 word with
    | none => slotCause e.1 [0]
    | some i => slotCause e.1 (syllableReasons e.1 word ++ dynamicReasons s w i)).head?

/-! ### Registers (R34, R26) -/

def bundleList (b : Bundle) : List Instr := [b.v, b.m, b.e, b.c]

def operandsWide (w : Warp) (i : Instr) : List Operand := (operandsOf i w.r.fmt).map (widenSreg i sregWide)

/-- The active lanes of an instruction. -/
def activeOf (w : Warp) (i : Instr) : Lanes :=
  match view i with
  | .syl _ _ f => w.r.active f.g1 f.g2
  | .ctl _ f => w.r.active f.g1 f.g2
  | .event => 0

/-- Kinds and positions of the operand errors of a list of instructions: the encoding kinds first. -/
def regErrors (w : Warp) (is : List Instr) : List (Nat × Nat) :=
  is.flatMap fun i => (operandsWide w i).filterMap fun o => (operandKind w.r.allot o).map fun k => (k, o.pos)

def emptyErrors (w : Warp) (is : List Instr) : List (Nat × Nat) :=
  is.flatMap fun i =>
    let act := activeOf w i
    (operandsWide w i).filterMap fun o => if act ≠ 0 ∧ o.x ∧ operandEmpty w.r act o then some (1, o.pos) else none

/-- Some register that a list of instructions reads is empty. -/
def sourceEmpty (w : Warp) (is : List Instr) : Bool :=
  is.any fun i =>
    let act := activeOf w i
    act != 0 && (operandsWide w i).any fun o => operandEmpty w.r act o

/-! ### Causes of one instruction beyond classes 0 and 1 -/

def otherRaises (s : State) (w : Warp) (i : Instr) : List TrapInfo :=
  match view i with
  | .syl .memory _ _ => memRaises s w i
  | .syl .engine _ f =>
    (match i with
     | .cgo _ => copyRaises s w f false
     | .cgath _ => copyRaises s w f true
     | .cscat _ => copyRaises s w f true
     | _ => matRaises s w i ++ travRaises s w i ++ claimRaises s w i)
  | .ctl _ f =>
    (match i with
     | .launch _ => flowRaises s w i f ++ launchRaises s w f
     | .rft _ => flowRaises s w i f ++ rftRaises s w f
     | .swr _ => sregRaises s w i f
     | _ => flowRaises s w i f)
  | _ => []

/-- The cause that comes first (R334). -/
def firstRaise : List TrapInfo → Option TrapInfo
  | [] => none
  | t :: ts =>
    match firstRaise ts with
    | none => some t
    | some u => if causeRank t.cause ≤ causeRank u.cause then some t else some u

/-- The issue causes of a control operation that depend on what its operand holds: none while the operand cannot be read. -/
def valueRaises (s : State) (w : Warp) (is : List Instr) : List TrapInfo :=
  is.flatMap fun i =>
    match view i with
    | .ctl _ _ =>
      if sourceEmpty w [i] || !(regErrors w [i]).isEmpty then [] else (otherRaises s w i).filter fun t => decide (t.cause < 0x020)
    | _ => []

/-- Classes 0 and 1 of a bundle, with the issue cause found in its words: the lowest issue cause, those of a value too, before
register causes (R57, R231, R334). -/
def earlyRaises (s : State) (w : Warp) (issue : Option Nat) (is : List Instr) : List TrapInfo :=
  let raise := fun c => [raise1 s.issue.pc c w.r.group.mask 0]
  match issue.elim [] raise ++ valueRaises s w is with
  | [] =>
    match regCause (regErrors w is ++ emptyErrors w is) with
    | some c => raise c
    | none => []
  | ts => ts

/-- The entry of a dealt task or a stage item is checked at its first bundle (R282). -/
def entryRaises (s : State) (w : Warp) : List TrapInfo :=
  match w.record with
  | none => []
  | some r =>
    if !w.handlers.isEmpty then []
    else
      match tfind s.dealt (recKey w.ctx r.toNat) with
      | none => []
      | some e =>
        let why := if e.1 % 32 ≠ 0 ∨ 2 ^ 56 ≤ e.1 then 2 else if s.issue.land || !e.2 then 0 else 3
        if why = 0 then []
        else [{ cause := 0x042, id := 0, pc := s.issue.pc.toNat, lanes := w.r.group.mask, va := e.1,
                reasons := (laneList w.r.group.mask).foldl (fun n l => n + why * 8 ^ l) 0 }]

/-! ### Running one syllable -/

/-- Issue reasons of one instruction that stands alone. -/
def ownCause (s : State) (w : Warp) (i : Instr) : Option Nat :=
  match slotOf i with
  | some slot => slotCause slot (staticReasons i ++ dynamicReasons s w i)
  | none => none

/-- The first cause of one instruction by itself. -/
def ownRaise (s : State) (w : Warp) (i : Instr) : Option TrapInfo :=
  firstRaise (earlyRaises s w (ownCause s w i) [i] ++ otherRaises s w i)

/-- A vector, memory or engine syllable of the bundle being issued: its warp's registers stand at the issue warp time. In a
bundle that has passed every check the effect takes place; a syllable by itself is checked first, traps (R335) or waits for
an empty source (R26). -/
def runSyl (i : Instr) (s : State) (f : Warp → State → State) : Out State :=
  match s.curWarp with
  | none => .fault .noWarp
  | some w0 =>
    let w := w0.at s.issue.t
    let u := s.setWarp s.cur w
    if s.issue.checked then .next (f w u)
    else
      match ownRaise u w i with
      | some t => .next (takeTrap s t)
      | none => if sourceEmpty w [i] then .next (u.modCur fun w => w.setWait .empty) else .next (f w u)

/-- A control syllable ends its bundle: the group moves on, then the operation acts, then a trap after the bundle is
taken. -/
def runCtl (i : Instr) (s : State) (f : Warp → State → State) : Out State :=
  runSyl i s fun w s => (f w s.advance).softTrap w

/-! ### Permits (R357 to R359) -/

def addCosts (a b : List Nat) : List Nat := (a.zip b).map fun e => e.1 + e.2

/-- Class of the result of a vector opcode: 0 VA, 1 VF, 2 VD (R102). -/
def vectorClass (i : Instr) (fmt : DWord) : Nat :=
  match i with
  | .vcvt _ => if fmtField fmt 8 = 7 then 2 else 1
  | .vred f => if f.e.toNat % 4 = 3 then 2 else if f.e.toNat % 4 = 2 then 1 else 0
  | .vscan f => if f.e.toNat % 4 = 3 then 2 else if f.e.toNat % 4 = 2 then 1 else 0
  | _ =>
    match view i with
    | .syl .vector op _ =>
      if op < 0x20 then 0 else if op < 0x30 then 1 else if op < 0x38 then 2 else if op < 0x48 then 1 else if op < 0x50 then 3 else 0
    | _ => 0

def scalarVec (i : Instr) (fmt : DWord) : Bool :=
  match view i, shapeAt i fmt with
  | .syl _ _ f, some h => isScalarForm h f
  | _, _ => false

/-- Some operand of a memory syllable is per lane (R132). -/
def perLaneMem (i : Instr) : Bool :=
  match view i, shape i with
  | .syl _ _ f, some h => !memScalar i h f
  | _, _ => false

/-- Costs in sixteenths by class: matrix, vector, special function, memory. -/
def permitCost (i : Instr) (fmt : DWord) : List Nat :=
  if isNop i then [0, 0, 0, 0]
  else
    match view i with
    | .syl .vector _ _ =>
      let c := vectorClass i fmt
      let n := if scalarVec i fmt then 2 else if c = 0 then 8 else if c = 1 then 12 else if c = 2 then 24 else 32
      if c = 3 then [0, 0, n, 0] else [0, n, 0, 0]
    | .syl .memory _ _ => [0, 0, 0, match i with
      | .fence _ => 4
      | .rfence _ => 4
      | _ => if perLaneMem i then 8 else 4]
    | .syl .engine op f =>
      (match i with
       | .mma _ | .mmas _ => [if fmtField fmt 0 = 4 ∨ fmtField fmt 0 = 6 then 40 else 32, 0, 0, 0]
       | .mrd _ | .mwr _ => [8, 0, 0, 0]
       | .mrel _ => [if f.op64 then 8 else 2, 0, 0, 0]
       | .mzero _ => [4, 0, 0, 0]
       | .macq _ => [2, 0, 0, 0]
       | _ => if op = 0 then [0, 0, 0, 0] else [0, 0, 0, 4])
    | _ => [0, 0, 0, 0]

def bundleCost (b : Bundle) (fmt : DWord) : List Nat :=
  addCosts (permitCost b.v fmt) (addCosts (permitCost b.m fmt) (permitCost b.e fmt))

/-! ### What a bundle reads, and its issue warp time (R20, R24) -/

/-- Predicates that an instruction reads; a NOP reads none (R53). -/
def predReads (i : Instr) : List Nat :=
  let guard := fun g : BitVec 4 => if g.toNat % 8 = 7 then [] else [g.toNat % 8]
  if isNop i then []
  else match view i with
  | .syl _ _ f =>
    guard f.g1 ++ guard f.g2 ++
    (match i with
     | .vaddc f | .vsel f => [f.c.toNat]
     | .vballot f | .vote f => [f.a.toNat]
     | .vplog f => [f.a.toNat, f.b.toNat, f.c.toNat]
     | .vpmov f => if f.op64 then [] else List.range 7
     | _ => [])
  | .ctl _ f => guard f.g1 ++ guard f.g2
  | .event => []

/-- Lanes in which an instruction reads its sources: those of its group, whatever its guards leave active, and any lane for a
shuffle. R20 names no lanes. (log 16, DEDUCED) -/
def readLanes (w : Warp) (i : Instr) : Lanes :=
  match i with
  | .vshfl _ => allLanes
  | _ => w.r.group.mask

/-- What a bundle reads, for the latency hold (R20). (log 16, DEDUCED) -/
def bundleReads (w : Warp) (b : Bundle) : Reads :=
  let rs := (bundleList b).flatMap fun i => (operandsWide w i).map (operandReads (readLanes w i))
  { regs := rs.flatMap (fun r => r.regs) ++ ((bundleList b).flatMap predReads).map fun n => (Dest.p n, allLanes),
    latches := rs.flatMap fun r => r.latches }

/-- Bank-delay cycles of a bundle. -/
def bundleDelay (w : Warp) (b : Bundle) : Nat := bankDelay (((bundleList b).flatMap fun i => operandsWide w i).flatMap operandVs)

/-! ### Holds -/

/-- A stall reason of R373. -/
abbrev Stall := Nat

/-- The hold of a due bundle that keeps the issue slot and advances warp time: 6 until its register-bank delay has run from its
due time, then 7 while a latency holds it (R20, R24). The registers stand at the present warp time, so a format is the one that
a bundle issued now would read (R85). (log 16, DEDUCED) -/
def slotDelay (w : Warp) (b : Bundle) : Option Stall :=
  if !w.r.group.paid && decide (w.r.wtime < w.r.due + bundleDelay w b) then some 6
  else if latencyHeld w.r.flight (bundleReads w b) w.r.wtime then some 7 else none

/-- A per-lane operation of the double-precision or special-function unit, and their occupancy (R101, R185). -/
def isMma (i : Instr) : Bool := match i with
  | .mma _ => true
  | .mmas _ => true
  | _ => false

def usesSf (i : Instr) : Bool := match view i with
  | .syl .vector op _ => decide (0x48 ≤ op) && decide (op ≤ 0x4E)
  | _ => false

def unitHeld (x : SubCore) (b : Bundle) : Bool :=
  (!isNop b.v && x.busyV != 0) || (usesSf b.v && x.busyS != 0) || (isMma b.e && x.busyM != 0)

def permitHeld (x : SubCore) (cost : List Nat) : Bool := (cost.zip x.permits).any fun e => decide (e.2 < e.1)

/-- Operation id still holds later memory and engine issue (R136, R259). In a handler one that waits for a replay holds nothing (log 22,
DEDUCED). -/
def stillHolds (s : State) (w : Warp) (id : Nat) : Bool :=
  match tfind s.mops id with
  | none => (tfind s.replies id).isSome
  | some o =>
    if !w.handlers.isEmpty && (o.faulted != 0 || o.cover.any fun c => match tfind s.mops c.1 with
        | some p => p.faulted &&& c.2 != 0
        | none => false) then false
    else match o.kind with
      | .ldacq => !o.delivered
      | .qtake => !o.delivered
      | _ => true

/-- A step that an SWR starts and that later memory and engine bundles of the warp wait for (R238, R371, R381, R387). -/
def holdingStep (i : Instr) : Bool :=
  match i with
  | .tlbinvWrite _ _ | .sketchDump _ _ | .flushpaWrite _ | .attestExtend _ | .attestQuote _ => true
  | _ => false

/-- Such a step of the warp waits, for a checkpoint to go (R346; log 20, DEDUCED) or for a slot of its partition (R291). -/
def stepHolds (s : State) (g : Nat) (w : Warp) : Bool :=
  w.checkpoint.any (fun c => c.later.any holdingStep) || s.owed.any fun i => match i with
    | .sketchDump h _ => h == g
    | _ => false

/-- An operation that holds later memory and engine issue is not yet complete or delivered, a step that does has not taken place, or a fence
has completed in this very cycle, whose accesses an SRD after it counts (R297). -/
def opHolds (s : State) (g : Nat) (w : Warp) : Bool :=
  w.freed == some (s.cluster (clusterOf g)).cycle || w.holdOp.any (stillHolds s w) || stepHolds s g w

def tsetHolds (s : State) (w : Warp) : Bool := match w.holdEng with
  | none => false
  | some id => (tfind s.tsets id).isSome

/-- The memory syllable needs an entry (R138). -/
def needsEntry (i : Instr) : Bool := match i with
  | .mnop _ => false
  | .fence _ => false
  | .rfence _ => false
  | .pref _ => false
  | _ => true

/-- A copy operation finds the queue full (R172, R178); one with no active lane needs no entry (log 79, DEDUCED). -/
def copyHeld (s : State) (g : Nat) (w : Warp) (i : Instr) : Bool := match i with
  | .cgo _ => activeOf w i != 0 && decide (64 ≤ copyCount s (clusterOf g))
  | .cgath _ => activeOf w i != 0 && decide (64 ≤ copyCount s (clusterOf g))
  | .cscat _ => activeOf w i != 0 && decide (64 ≤ copyCount s (clusterOf g))
  | _ => false

/-- TRAV finds fewer free lane-traversals than its lanes (R187, R309). -/
def travHeld (s : State) (g : Nat) (w : Warp) (i : Instr) : Bool := match i with
  | .trav _ => decide (256 < (s.cluster (clusterOf g)).walkLanes + laneCount (activeOf w i))
  | _ => false

/-- FORK finds the kitty full; SYNC waits for the warp's own operations or, in a loop warp, for its children (R202, R218,
R283). -/
def taskHeld (s : State) (g : Nat) (w : Warp) (i : Instr) : Bool := match i with
  | .fork _ => activeOf w i != 0 && decide (512 ≤ (s.cluster (clusterOf g)).kitty.length)
  | .sync _ => activeOf w i != 0 &&
      (if w.loop.isSome then ownJoin s g w != 0 else (ownJoin s g w != 0 || w.joining) && warpBusy s g)
  | _ => false

/-- Predicates that an instruction writes beside its operands: a carry, a condition, all seven, the outcome of a wait. -/
def predWrites (i : Instr) : List Nat :=
  match i, shape i, view i with
  | .vaddc f, _, _ => [f.c.toNat]
  | .vpmov f, _, _ => if f.op64 then List.range 7 else []
  | .tlwait f, _, _ => if f.bits 0 3 < 7 then [f.bits 0 3] else []
  | _, some h, .syl _ _ f => if h.d = .pred then [f.d.toNat] else []
  | _, _, _ => []

/-- The V (n), S (192 + n) and P (256 + n) registers that an instruction of the bundle writes (R346). -/
def writesOf (w : Warp) (i : Instr) : List Nat :=
  if activeOf w i = 0 then []
  else
    ((operandsWide w i).flatMap fun o =>
      if o.isDst && decide (o.code < 240) then (List.range o.words).map fun k => o.code + k else []) ++
    (predWrites i).map fun p => 256 + p

def bundleWrites (w : Warp) (b : Bundle) : List Nat :=
  (writesOf w b.v ++ writesOf w b.m ++ writesOf w b.e ++ writesOf w b.c).dedup

/-- The bundle would be the one to write more than 32 registers after the checkpoint (R346). (log 65, DEDUCED) -/
def writesTooMany (w : Warp) (b : Bundle) : Bool :=
  match w.checkpoint with
  | [] => false
  | c :: _ => decide (32 < (c.wrote ++ bundleWrites w b).dedup.length)

/-- The control operations of which R346 holds a bundle. -/
def outside (i : Instr) : Bool :=
  match i with
  | .fork _ | .sync _ | .exit _ | .bar _ | .bara _ | .launch _ | .kend _ => true
  | _ => false

/-- The bundle does more than the return to a checkpoint can undo (R346). -/
def lasting (b : Bundle) : Bool := !isNop b.e || outside b.c

/-- What precise memory mode holds while a checkpoint stands (R346). -/
def preciseHeld (w : Warp) (b : Bundle) : Bool := w.precise && !w.checkpoint.isEmpty && (writesTooMany w b || lasting b)

/-- The bundle's memory access opens a checkpoint (R346). -/
def opensCheckpoint (w : Warp) (b : Bundle) : Bool :=
  w.precise && activeOf w b.m != 0 && match memForm b.m with
    | some m => m.kind.isAccess
    | none => false

/-- The partition of the warp traces on its die (R367). -/
def traced (s : State) (g : Nat) (w : Warp) : Bool := (pdReg s 0x1A4 w.part (dieOf g) 0).getLsbD 60

/-- The bundle reads or writes memory as it issues and waits for a slot in which that may go on (R291), with the reason of the hold: the
targets of a transfer through a B register (R202), the records of FORK, DDEAL and SYNC (R396), RFT's save area (R343); a launch record, a
counter, a trace record, page tables in precise memory mode. (log 67, DEDUCED) -/
def slotHeld (s : State) (g : Nat) (w : Warp) (b : Bundle) : Option Stall :=
  let shut := !slotOpen s w.part
  let closed := writesShut s w.part
  let reason := fun (c : Bool) r => if c then some r else none
  (if activeOf w b.c = 0 then none
   else match b.c with
    | .rft _ => reason closed 16
    | .launch _ | .tlwait _ => reason shut 9
    | .enter _ | .leave _ => reason (closed && traced s g w) 9
    | .bra f | .brd f | .call f => reason (shut && f.a != 0) 11
    | .ret _ => reason shut 11
    | .fork _ | .sync _ => reason closed 12
    | _ => none).or
  (reason (shut && opensCheckpoint w b) 9 |>.or (match b.e with
    | .ddeal _ => reason (closed && activeOf w b.e != 0) 12
    | _ => none))

/-- The first hold of a due bundle, as its stall reason; none when it may issue (R292, R373). -/
def bundleHeld (s : State) (g : Nat) (w : Warp) (b : Bundle) : Option Stall :=
  let x := s.sub (subOf g)
  let slot := slotHeld s g w b
  let busy := !isNop b.m || !isNop b.e
  if (s.cluster (clusterOf g)).stretch ≠ 0 ∨ (s.cluster (clusterOf g)).retention then some 14
  else if slot = some 16 then some 16
  else if unitHeld x b || s.tests.any (fun e => e.1 == 0 && e.2 / 4 == subOf g) then some 8
  else if permitHeld x (bundleCost b w.r.fmt) then some 13
  else if (busy && opHolds s g w) || (needsEntry b.m && decide (16 ≤ entriesHeld s g)) || preciseHeld w b || slot = some 9 then some 9
  else if (!isNop b.e && tsetHolds s w) || copyHeld s g w b.e || travHeld s g w b.e then some 10
  else if slot = some 11 then some 11
  else if taskHeld s g w b.c || slot = some 12 then some 12
  else none

end Sys2Proof.Machine
end

