-- ==== Sys2Proof/Machine/Control.lean ====
section
/-! DEFINITION. The meanings of the control slot (R203 to R229). The bundle ends with its control operation. -/

namespace Sys2Proof.Machine

/-- An operation acts when a lane of the group passes both guards (R199). -/
def ctlActive (w : Warp) (f : Ctl) (act : State → State) (s : State) : State :=
  if w.r.active f.g1 f.g2 = 0 then s else act s

/-- A result of PREP or SRD: its S destination takes one value. -/
def State.ctlScalar (s : State) (f : Ctl) (words : Nat) (v : DWord) : State := s.pushCtl f.a.toNat words (laneBit 0) fun _ => v

/-- Write B register b of the active lanes. -/
def State.putB (s : State) (w : Warp) (f : Ctl) (b : Nat) (val : Nat → Nat) : State :=
  s.modCur fun c => { c with r := c.r.writeBs b (w.r.active f.g1 f.g2) val }

/-- PREP in its three modes. -/
def State.prep (s : State) (w : Warp) (f : Ctl) : State :=
  let b := f.bits 29 3
  let act := w.r.active f.g1 f.g2
  match f.prepMode with
  | 0 => s.putB w f b fun l => relPc s.issue.pc (ctlOffset f 27 + (src32 w s.issue 0 f.a.toNat l).toInt)
  | 1 => s.putB w f b fun l => (src64 w s.issue 0 f.a.toNat l).toNat
  | _ =>
    if act = 0 then s
    else if isV f.a.toNat then s.pushCtl f.a.toNat 2 act fun l => w.r.readB b l
    else s.ctlScalar f 2 (w.r.readB b (lowLane act))

/-- CALL: return addresses and depth. -/
def State.enterCall (s : State) (w : Warp) : State :=
  let back := (s.issue.pc + 96).toNat
  s.modCur fun c => { c with r := { c.r.writeBs 7 w.r.group.mask (fun (_ : Nat) => back) with rd := c.r.rd + 1 } }

/-- JSET. (log 54, DEDUCED) -/
def State.jset (s : State) (w : Warp) (f : Ctl) : State :=
  let j : Join := { expect := w.r.active f.g1 f.g2, arrived := 0, jpc := pcOf (ctlLabel f s.issue.pc), valid := true }
  s.modCur fun c => { c with r := c.r.setJoin f.a.toNat j }

/-- JOIN: the group arrives, waits, and merges if it was the last. -/
def State.joinGroup (s : State) (w : Warp) (f : Ctl) : State :=
  let j := f.a.toNat
  s.modCur fun c =>
    let q := c.r.joinReg j
    let c := { c with r := c.r.setJoin j { q with arrived := q.arrived ||| w.r.group.mask } }.setWait (.join j)
    let r := c.r.completeJoin j
    { c with r := r, burst := if (r.joinReg j).valid then c.burst else 0 }

/-- EXIT: where its lanes leave no group behind, another group is the current one; one whose join the exit has completed is due in the
next warp cycle, now or when the ring reaches it before another bundle issues (R210, R294). -/
def State.exitGroup (s : State) (w : Warp) (m : Lanes) : State :=
  (s.exitLanes s.cur m (some (s.issue.t + 1))).modCur fun c =>
    if w.r.group.mask &&& ~~~m != 0 then c else { c with burst := 0, r := c.r.startGroup }

/-- WAITF: the group waits unless every named flag has left clear; then it consumes them. -/
def State.waitFlags (s : State) (w : Warp) (m : BitVec 8) : State :=
  if flagsLeft w m then s.consumeFlags s.cur fun n => m.getLsbD n else s.modCur fun c => c.setWait (.flag m)

/-- YIELD: the group moves to its resume address and rests there until the flag leaves clear. -/
def State.restGroup (s : State) (w : Warp) (f : Ctl) : State :=
  let n := f.a.toNat
  let s := s.modCur fun c => c.setPc (pcOf (ctlLabel f s.issue.pc))
  if (w.flag n).state = 0 then s.modCur fun c => c.setWait (.rest n) else s.consumeFlags s.cur fun k => k == n

/-- TLWAIT: address and threshold in four registers; the counter is read, and watched if the wait goes on. -/
def State.waitCounter (s : State) (w : Warp) (f : Ctl) : State :=
  let q := srcN w s.issue 0 4 f.a.toNat (lowLane w.r.group.mask)
  let ns := 8 * f.bits 3 29
  let wait : Wait := .timeline (if ns = 0 then none else some (timeOf s (dieOf s.cur) + ns)) (BitVec.ofNat 64 q) none
    (BitVec.ofNat 64 (q / 2 ^ 64)) (f.bits 0 3)
  let s := s.modCur fun c => c.setWait wait
  s.retestTime s.cur ((s.curWarp.map fun c => c.r.cur).getD 0)

/-- SLEEP. -/
def State.sleepFor (s : State) (w : Warp) (f : Ctl) : State :=
  let d := f.imm.toNat + (src32 w s.issue 0 f.a.toNat (lowLane w.r.group.mask)).toNat
  if d = 0 then s else s.modCur fun c => c.setWait (.sleep (timeOf s (dieOf s.cur) + d))

/-- FMTS: visible to bundles four warp cycles on (R32). Bit 15, in no row of R32's map, keeps what is written.
(log 70, DESIGN CHOICE) -/
def State.setFmt (s : State) (w : Warp) (f : Ctl) : State :=
  let v := BitVec.ofNat 64 (ctl64 w s.issue f)
  let t := s.issue.t
  s.launchCur fun q c =>
    c.r.launchResult .fmt 4 t 4 4 (laneBit 0 ||| laneBit 1) (laneTable 0 (laneBit 0 ||| laneBit 1) fun l =>
      if l = 0 then lowWord v else highWord v) none 0 false q

/-- GROW: new registers read zero and full. -/
def State.grow (s : State) (w : Warp) (f : Ctl) : State :=
  let n := f.imm.toNat
  if n ≤ w.r.allot then s.ctlScalar f 1 0
  else if n - w.r.allot ≤ freeRegs s (subOf s.cur) then
    (s.modCur fun c => { c with r := { c.r.clearFrom w.r.allot n with allot := n } }).ctlScalar f 1 0
  else s.ctlScalar f 1 1

/-- SHRINK: what is in flight to the released registers is discarded. -/
def State.shrink (s : State) (w : Warp) (f : Ctl) : State :=
  s.modCur fun c => { c with r := { c.r.clearFrom f.imm.toNat w.r.allot with allot := f.imm.toNat } }

/-- ENTER and LEAVE move the region stack and are traced, ENTER after its push and LEAVE before its pop (R368); a stop at the
edge is taken after the bundle (R366). -/
def State.region (s : State) (w : Warp) (f : Ctl) (enter : Bool) : State :=
  let id := f.imm.toNat % 2 ^ 16
  let r := if enter then w.r.pushRegion id else w.r.popRegion
  let s := s.modCur fun c => { c with r := { c.r with rstk := r.rstk, rsdepth := r.rsdepth } }
  let s := s.traceRecord s.cur w s.issue.pc.toNat (if enter then r.rstkWord else w.r.rstkWord) (if enter then 2 else 3) id
  if regionStops s w id then s.afterBundle 0x122 id else s

/-- KEND: the iteration count rises and the group goes to BODY or EPI. -/
def State.kend (s : State) : State :=
  s.modCur fun c =>
    match c.loop with
    | none => c
    | some q =>
      let n := q.iter + 1
      { c with loop := some { q with iter := n, closed := true } }.setPc (if n < q.trip then q.body else q.epi)

/-- NOP ends its bundle and does nothing else (R53). -/
def execNop (f : Ctl) (s : State) : Out State := runCtl (.nop f) s fun _ s => s

/-- PREP (R203). -/
def execPrep (f : Ctl) (s : State) : Out State := runCtl (.prep f) s fun w s => s.prep w f

/-- PREPI (R203). -/
def execPrepi (f : Ctl) (s : State) : Out State :=
  runCtl (.prepi f) s fun w s => s.putB w f (f.bits 29 3) fun _ => relPc s.issue.pc (ctlOffset f 29)

/-- BRA (R204, R206). -/
def execBra (f : Ctl) (s : State) : Out State := runCtl (.bra f) s fun w s => s.transfer w (.bra f) f

/-- BRD (R204, R206). -/
def execBrd (f : Ctl) (s : State) : Out State := runCtl (.brd f) s fun w s => s.transfer w (.brd f) f

/-- JSET (R209). -/
def execJset (f : Ctl) (s : State) : Out State := runCtl (.jset f) s fun w s => ctlActive w f (fun s => s.jset w f) s

/-- JOIN (R210). -/
def execJoin (f : Ctl) (s : State) : Out State := runCtl (.join f) s fun w s => ctlActive w f (fun s => s.joinGroup w f) s

/-- CALL (R206). -/
def execCall (f : Ctl) (s : State) : Out State :=
  runCtl (.call f) s fun w s => (ctlActive w f (fun s => s.enterCall w) s).transfer w (.call f) f

/-- RET (R206). -/
def execRet (f : Ctl) (s : State) : Out State :=
  runCtl (.ret f) s fun w s =>
    (ctlActive w f (fun s => s.modCur fun c => { c with r := { c.r with rd := c.r.rd - 1 } }) s).transfer w (.ret f) f

/-- EXIT (R211). -/
def execExit (f : Ctl) (s : State) : Out State :=
  runCtl (.exit f) s fun w s => ctlActive w f (fun s => s.exitGroup w (w.r.active f.g1 f.g2)) s

/-- BAR (R212): arrive and wait. -/
def execBar (f : Ctl) (s : State) : Out State :=
  runCtl (.bar f) s fun w s => ctlActive w f (fun s => s.arriveBarrier w (f.bits 0 5) (f.bits 8 7) true) s

/-- BARA (R212): arrive and go on. -/
def execBara (f : Ctl) (s : State) : Out State :=
  runCtl (.bara f) s fun w s => ctlActive w f (fun s => s.arriveBarrier w (f.bits 0 5) (f.bits 8 7) false) s

/-- WAITF (R213). -/
def execWaitf (f : Ctl) (s : State) : Out State :=
  runCtl (.waitf f) s fun w s => ctlActive w f (fun s => s.waitFlags w (f.imm.extractLsb' 0 8)) s

/-- YIELD (R214). -/
def execYield (f : Ctl) (s : State) : Out State :=
  runCtl (.yield f) s fun w s => ctlActive w f (fun s => s.restGroup w f) s

/-- FORK (R217). -/
def execFork (f : Ctl) (s : State) : Out State := runCtl (.fork f) s fun w s => ctlActive w f (fun s => s.fork w f) s

/-- SYNC (R218). -/
def execSync (f : Ctl) (s : State) : Out State := runCtl (.sync f) s fun w s => ctlActive w f (fun s => s.sync w) s

/-- LAUNCH (R220). -/
def execLaunch (f : Ctl) (s : State) : Out State := runCtl (.launch f) s fun w s => ctlActive w f (fun s => s.launch w f) s

/-- TLWAIT (R215). -/
def execTlwait (f : Ctl) (s : State) : Out State :=
  runCtl (.tlwait f) s fun w s => ctlActive w f (fun s => s.waitCounter w f) s

/-- FMTS (R221). -/
def execFmts (f : Ctl) (s : State) : Out State := runCtl (.fmts f) s fun w s => ctlActive w f (fun s => s.setFmt w f) s

/-- GROW (R222). -/
def execGrow (f : Ctl) (s : State) : Out State := runCtl (.grow f) s fun w s => ctlActive w f (fun s => s.grow w f) s

/-- SHRINK (R223). -/
def execShrink (f : Ctl) (s : State) : Out State := runCtl (.shrink f) s fun w s => ctlActive w f (fun s => s.shrink w f) s

/-- ENTER (R224). -/
def execEnter (f : Ctl) (s : State) : Out State :=
  runCtl (.enter f) s fun w s => ctlActive w f (fun s => s.region w f true) s

/-- LEAVE (R224). -/
def execLeave (f : Ctl) (s : State) : Out State :=
  runCtl (.leave f) s fun w s => ctlActive w f (fun s => s.region w f false) s

/-- TRAP (R227): the software cause is taken when the bundle has issued. -/
def execTrap (f : Ctl) (s : State) : Out State :=
  runCtl (.trap f) s fun w s =>
    ctlActive w f (fun s => s.afterBundle (0x160 + f.imm.toNat % 32) (f.imm.toNat % 32)) s

/-- RFT (R229, R343). -/
def execRft (f : Ctl) (s : State) : Out State := runCtl (.rft f) s fun w s => ctlActive w f (fun s => s.rft w f) s

/-- OVTLD (R226). -/
def execOvtld (f : Ctl) (s : State) : Out State :=
  runCtl (.ovtld f) s fun w s => ctlActive w f (fun s =>
    s.sregWriting fun s => s.setSreg (sregKey 0x122 w.ctx) 0x4015 (BitVec.ofNat 64 (ctl64 w s.issue f % 2 ^ 20))) s

/-- SRD (R225). -/
def execSrd (f : Ctl) (s : State) : Out State :=
  runCtl (.srd f) s fun w s => ctlActive w f (fun s =>
    s.ctlScalar f (if sregWide f.imm.toNat then 2 else 1) (BitVec.ofNat 64 (sregRead s s.cur w f.imm.toNat))) s

/-- SWR (R225). -/
def execSwr (f : Ctl) (s : State) : Out State :=
  runCtl (.swr f) s fun w s => ctlActive w f (fun s =>
    let n := f.imm.toNat
    let v := ctl64 w s.issue f
    s.sregWriting fun s => s.sregWrite s.cur w n (if sregWide n then v else v % 2 ^ 32)) s

/-- SLEEP (R216). -/
def execSleep (f : Ctl) (s : State) : Out State := runCtl (.sleep f) s fun w s => ctlActive w f (fun s => s.sleepFor w f) s

/-- BKPT (R228): the debug cause, precise, with its id. -/
def execBkpt (f : Ctl) (s : State) : Out State :=
  runSyl (.bkpt f) s fun w s =>
    takeTrap s { cause := 0x120, id := f.imm.toNat, pc := s.issue.pc.toNat, lanes := w.r.group.mask, va := 0, reasons := 0 }

/-- KEND (R219). -/
def execKend (f : Ctl) (s : State) : Out State := runCtl (.kend f) s fun w s => ctlActive w f (fun s => s.kend) s

end Sys2Proof.Machine
end

