-- ==== Sys2Proof/Machine/Engine.lean ====
section
/-! DEFINITION. The meanings of the engine slot (R173 to R196). An operation enters its engine; the engine's own steps
complete it. -/

namespace Sys2Proof.Machine

/-- A per-warp instruction acts when a lane of the group passes both guards (R169). -/
def whenActive (w : Warp) (f : Syl) (act : State → State) (s : State) : State :=
  if w.r.active f.g1 f.g2 = 0 then s else act s

/-- CSET writes a word of the shadow set (R174). -/
def State.setShadow (s : State) (w : Warp) (f : Syl) : State :=
  let v := src32 w s.issue f.e f.a.toNat (lowLane w.r.group.mask)
  s.modWarp s.cur fun w => { w with r := { w.r with shadow := tset 0 w.r.shadow (f.e.toNat % 8) v } }

/-- CQRY: the error address of a flag, or the free entries of the queue (R177). -/
def State.issueCqry (s : State) (w : Warp) (f : Syl) : State :=
  let ws := if f.op64 then [64 - copyCount s (clusterOf s.cur)]
    else [(lowWord (w.flag f.e.toNat).errAddr).toNat, (highWord (w.flag f.e.toNat).errAddr).toNat]
  s.issueReply s.cur f.d.toNat (if f.op64 then 1 else 2) w.r.group.mask (scalarVals ws) true false

/-- MACQ: a free token is granted at once; otherwise the request queues (R181). (log 63, DEDUCED) -/
def State.issueMacq (s : State) (f : Syl) : State :=
  let g := s.cur
  let t := f.d.toNat
  let n := subOf g
  let x := (s.sub n).tile t
  let s := { s.modWarp g (fun w => w.bindFlag f.e.toNat s.nextId) with nextId := s.nextId + 1 }
  if x.token = .free then (s.modSub n fun c => c.setTile t { x with token := .held g }).finishFlag g f.e.toNat 1 0
  else s.modSub n fun c => c.setTile t { x with queue := x.queue ++ [(g, f.e.toNat)] }

/-- MMA and MMAS read their fragments and bind their flag (R180, R183). -/
def State.issueProduct (s : State) (w : Warp) (f : Syl) (kind : MatKind) (bWords : Nat) (sparse : Bool) : State :=
  let frag := fragment w s.issue f
  (s.modWarp s.cur fun w => w.bindFlag f.e.toNat s.nextId).issueMat w kind f.d.toNat f.e.toNat 0 (frag f.a.toNat 2)
    (frag f.b.toNat bWords) (if sparse then frag f.c.toNat 1 else [])

/-- MREL: with `.rd` a readout first; the release waits for its delivery (R181, R184). -/
def State.issueMrel (s : State) (w : Warp) (f : Syl) : State :=
  if f.op64 then (s.issueReadout w f f.a.toNat).issueMat w .mrel f.a.toNat 0 s.nextId [] [] []
  else whenActive w f (fun s => s.issueMat w .mrel f.a.toNat 0 0 [] [] []) s

/-- TRET of every active lane (R188). -/
def State.issueTret (s : State) (w : Warp) (f : Syl) : State :=
  let verdict := fun l => src32 w s.issue f.e f.a.toNat l
  let aux := fun l => if f.op64 then some (src32 w s.issue f.e f.b.toNat l) else none
  (laneList (w.r.active f.g1 f.g2)).foldl (fun s l => s.returnLane l (verdict l) (aux l)) s

/-- Act on the allocation that a deck handle names. (log 38, DEDUCED) -/
def State.withDeck (s : State) (w : Warp) (h : BitVec 8) (act : Handle → State) : State :=
  match deckHandle s w h.toNat with
  | some q => act q
  | none => s

/-- DDEPTH's counts (R192), taken once the decks are as it must find them (R254). -/
def State.issueDepth (s : State) (w : Warp) (f : Syl) (h : Handle) : State :=
  let act := w.r.active f.g1 f.g2
  let late := (laneList act).any (deckWaits s w.team h.gen s.nextId)
  let t := s.issueReply s.cur f.d.toNat 1 act (if late then [] else deckCounts s w.team h.gen act) (!late) false
  if late then t.askReply s.nextId (.depth h.gen act) else t

/-- ENOP has no effect (R173). -/
def execEnop (f : Syl) (s : State) : Out State := runSyl (.enop f) s fun _ s => s

/-- CSET (R174). -/
def execCset (f : Syl) (s : State) : Out State := runSyl (.cset f) s fun w s => whenActive w f (fun s => s.setShadow w f) s

/-- CGO (R175): a box between memory and a tile. -/
def execCgo (f : Syl) (s : State) : Out State := runSyl (.cgo f) s fun w s => s.issueCopy w f (if f.op64 then .store else .load)

/-- CGATH (R176): rows gathered into a tile. -/
def execCgath (f : Syl) (s : State) : Out State := runSyl (.cgath f) s fun w s => s.issueCopy w f .gather

/-- CSCAT (R176): rows scattered from a tile. -/
def execCscat (f : Syl) (s : State) : Out State := runSyl (.cscat f) s fun w s => s.issueCopy w f .scatter

/-- CQRY (R177). -/
def execCqry (f : Syl) (s : State) : Out State := runSyl (.cqry f) s fun w s => whenActive w f (fun s => s.issueCqry w f) s

/-- MMA (R182): a dense block product. -/
def execMma (f : Syl) (s : State) : Out State := runSyl (.mma f) s fun w s => s.issueProduct w f .mma 2 false

/-- MMAS (R183): a sparse block product. -/
def execMmas (f : Syl) (s : State) : Out State := runSyl (.mmas f) s fun w s => s.issueProduct w f .mmas 4 true

/-- MACQ (R181): ask for a tile's token. -/
def execMacq (f : Syl) (s : State) : Out State := runSyl (.macq f) s fun w s => whenActive w f (fun s => s.issueMacq f) s

/-- MREL (R181): release a tile's token. -/
def execMrel (f : Syl) (s : State) : Out State := runSyl (.mrel f) s fun w s => s.issueMrel w f

/-- MRD (R184): read a tile out. -/
def execMrd (f : Syl) (s : State) : Out State := runSyl (.mrd f) s fun w s => s.issueReadout w f f.a.toNat

/-- MWR (R184): write a tile. -/
def execMwr (f : Syl) (s : State) : Out State := runSyl (.mwr f) s fun w s =>
    s.issueMat w .mwr f.d.toNat 0 0 (fragment w s.issue f f.a.toNat 4) [] []

/-- MZERO (R184): zero a tile. -/
def execMzero (f : Syl) (s : State) : Out State := runSyl (.mzero f) s fun w s => whenActive w f (fun s => s.issueMat w .mzero f.d.toNat 0 0 [] [] []) s

/-- TSET (R186): load a node layout table. -/
def execTset (f : Syl) (s : State) : Out State := runSyl (.tset f) s fun w s => whenActive w f (fun s => s.issueTset w f (.tset f)) s

/-- TRAV (R187): start a walk. -/
def execTrav (f : Syl) (s : State) : Out State := runSyl (.trav f) s fun w s => s.issueTrav w f

/-- TRET (R188): end a call. -/
def execTret (f : Syl) (s : State) : Out State := runSyl (.tret f) s fun w s => s.issueTret w f

/-- DPUSH (R189): push one entry per lane. -/
def execDpush (f : Syl) (s : State) : Out State := runSyl (.dpush f) s fun w s =>
    whenActive w f (fun s => s.withDeck w f.d fun h => s.issuePush w f h.gen (.dpush f)) s

/-- DCUT (R190): cut decks at a level. -/
def execDcut (f : Syl) (s : State) : Out State := runSyl (.dcut f) s fun w s =>
    whenActive w f (fun s => s.withDeck w f.c fun h => s.issueCut w f h.gen (.dcut f)) s

/-- DDEAL (R191): make a task of a segment. -/
def execDdeal (f : Syl) (s : State) : Out State := runSyl (.ddeal f) s fun w s => whenActive w f (fun s => s.issueDeal w f (.ddeal f)) s

/-- DDEPTH (R192). -/
def execDdepth (f : Syl) (s : State) : Out State := runSyl (.ddepth f) s fun w s =>
    whenActive w f (fun s => s.withDeck w f.a fun h => s.issueDepth w f h) s

/-- CLAIM (R194). -/
def execClaim (f : Syl) (s : State) : Out State := runSyl (.claim f) s fun w s => whenActive w f (fun s => s.issueClaim w f) s

/-- OBJECT (R195). -/
def execObject (f : Syl) (s : State) : Out State := runSyl (.object f) s fun w s => whenActive w f (fun s => s.issueObject w f (.object f)) s

/-- CLREAD (R196). -/
def execClread (f : Syl) (s : State) : Out State := runSyl (.clread f) s fun w s => whenActive w f (fun s => s.issueRead w f) s

/-- CLPOLL (R195). -/
def execClpoll (f : Syl) (s : State) : Out State := runSyl (.clpoll f) s fun w s => whenActive w f (fun s => s.issuePoll w f) s

/-- CLGRP (R193). -/
def execClgrp (f : Syl) (s : State) : Out State := runSyl (.clgrp f) s fun w s => whenActive w f (fun s => s.issueGroup w f) s

end Sys2Proof.Machine
end

