-- ==== Sys2Proof/Machine/Sched.lean ====
section
/-! DEFINITION. What a warp does next (R10 to R14, R162, R292 to R295, R334, R335): its next bundle, the trap before it,
its hold, and which warp of a sub-core is taken. -/

namespace Sys2Proof.Machine

/-! ### Deferred faults (R162, R335, R346) -/

/-- The performed lanes of an access, and the faulted ones. R162 names no scope: performed at `.die`. (log 91, DEDUCED) -/
def MemOp.reported (o : MemOp) : Lanes := o.die ||| o.faulted

/-- An operation of warp g that cannot go on before the replay of a faulted lane: a release or fence that covers one (R163), or an access
to the bytes of such an operation; `acc` lists the earlier ones. An access to the bytes of a faulted lane faults with it, and the trap
waits for its report (R162, R267). -/
def stuckOn (s : State) (g : Nat) (acc : List Nat) (id : Nat) (o : MemOp) : Bool :=
  (o.cover.any fun c => acc.contains c.1 || match tfind s.mops c.1 with
    | some p => p.faulted &&& c.2 != 0
    | none => false) ||
  (laneList (o.lanes &&& ~~~o.reported)).any fun l => s.mops.any fun e =>
    e.1 < id && e.2.warp == g && e.2.kind.isAccess && acc.contains e.1 && (laneList e.2.lanes).any fun q => o.meets s e.2 l q

/-- The operations of warp g that wait for a replay. -/
def stuckOps (s : State) (g : Nat) : List Nat :=
  s.mops.foldl (fun acc e => if e.2.warp == g && stuckOn s g acc e.1 e.2 then acc ++ [e.1] else acc) []

/-- The fault whose cause the trap reports: the first in the order of R334. (log 45, DEDUCED) -/
def firstFault : List FaultRec → Option FaultRec
  | [] => none
  | q :: t =>
    match firstFault t with
    | none => some q
    | some r => if causeRank q.cause ≤ causeRank r.cause then some q else some r

/-- The checkpoint that a fault returns to in precise mode (R165, R346). -/
def faultCheckpoint (w : Warp) : Option Checkpoint :=
  if w.precise then (w.faults.find? fun q => q.replay).bind fun q => w.checkpoint.find? fun c => c.seq == q.seq else none

/-- Every memory-slot instruction issued earlier has been performed or has reported, or waits for a replay; in precise mode
those after the faulting one do not count. -/
def faultsReady (s : State) (g : Nat) (w : Warp) : Bool :=
  let bound := match faultCheckpoint w with
    | some c => some c.1
    | none => none
  let stuck := stuckOps s g
  !w.faults.isEmpty && s.mops.all fun e =>
    e.2.warp != g || (e.2.kind.isAccess && decide (e.2.lanes &&& ~~~e.2.reported = 0)) || stuck.contains e.1 ||
      (match bound with
       | some n => decide (n ≤ e.2.seq)
       | none => false)

/-- The report of a deferred fault: the instruction's own bundle, or the next one of the group for a cause that no bundle
raises (R339). -/
def faultInfo (w : Warp) (q : FaultRec) : TrapInfo :=
  { cause := q.cause, id := 0, pc := if q.cause = 0x0BE then w.r.group.pc.toNat else q.pc.toNat, lanes := q.lanes,
    va := (tget 0 q.addr (lowLane q.lanes)).toNat, reasons := 0 }

/-- Put back what a write of a special register has replaced. -/
def State.undo (s : State) (g : Nat) : Undo → State
  | .sreg key (some v) => { s with sreg := tput s.sreg key v }
  | .sreg key none => { s with sreg := terase s.sreg key }
  | .spill lbase lsize => s.modWarp g fun w => { w with lbase := lbase, lsize := lsize }
  | .feat p v => s.setPart p { s.part p with feat := v }
  | .reported p b => s.setPart p { s.part p with reported := b }
  | .notice n => s.modWarp g fun w => { w with notices := n :: w.notices }

/-- A tile handle request, which a checkpoint holds back (R346). -/
def HandleReq.held : HandleReq → Bool
  | .halloc _ _ _ _ | .hfree _ | .hqry _ => true
  | .depth _ _ | .group _ _ => false

/-- The warp returns to a checkpoint: what the faulting bundle and every later one did is undone, a trap and a return among it, and their
memory operations and handle requests are discarded (R346). (log 20, DEDUCED) -/
def State.toCheckpoint (s : State) (g : Nat) (w : Warp) (c : Checkpoint) : State :=
  let s := ((w.checkpoint.filter fun e => decide (c.seq ≤ e.seq)).reverse.flatMap fun e => e.undo).foldl (fun s u => s.undo g u) s
  let w := { (tfind s.warps g).getD w with
    r := c.regs, faults := [], checkpoint := [], memSeq := c.seq, level := c.level, handlers := c.handlers, holdOp := c.holdOp,
    holdEng := c.holdEng, stepped := c.stepped, soft := none }
  { s.setWarp g w with
    mops := s.mops.filter (fun e => e.2.warp ≠ g ∨ e.2.seq < c.seq),
    replies := s.replies.filter fun e => e.2.warp ≠ g ∨ (e.2.req.map HandleReq.held) ≠ some true ∨ e.2.seq < c.seq }

/-- A notice is taken; the return to a checkpoint brings it back. -/
def Warp.takeNotice (w : Warp) (n : Nat × Nat) (rest : List (Nat × Nat)) : Warp :=
  { w with notices := rest, checkpoint := noteLast [.notice n] [] w.checkpoint }

/-- DEFERRED_FAULT_TRAP: the trap of a bundle that has issued, the deferred faults of a warp, or a notice for its next bundle boundary,
become a trap at the warp time at which its next bundle is due, once warp time has come to it (R335); in precise memory mode at the issue
warp time of the faulting bundle (R346). -/
def State.deferredTrap (s : State) (g : Nat) : State :=
  match tfind s.warps g with
  | none => s
  | some w =>
    let late := decide (w.r.wtime < w.r.due)
    if w.ended || w.halted then s
    else
      match w.soft, firstFault w.faults with
      | some x, _ => if late then s else (s.modWarp g fun w => { w with soft := none }).takeSoft g w.r.due x
      | none, some q =>
        if !faultsReady s g w then s
        else
          (match faultCheckpoint w with
           | some c =>
             takeTrapAt (s.toCheckpoint g w c) g c.regs.wtime { faultInfo w q with pc := c.pc.toNat }
           | none => if late then s else takeTrapAt s g w.r.due (faultInfo w q))
      | none, none =>
        if late then s else
        match if w.handlers.isEmpty then w.stepped else none, w.notices with
        | some pc, _ =>
          takeTrapAt (s.setWarp g { w with stepped := none }) g w.r.due
            { cause := 0x121, id := 0, pc := pc.toNat, lanes := w.r.group.mask, va := 0, reasons := 0 }
        | none, [] => s
        | none, n :: t =>
          takeTrapAt (s.setWarp g (w.takeNotice n t)) g w.r.due
            { cause := n.1, id := n.2, pc := w.r.group.pc.toNat, lanes := w.r.group.mask, va := 0, reasons := 0 }

/-! ### The next bundle -/

/-- The stall reason of a wait state (R373). -/
def waitStall : Wait → Stall
  | .ready => 0
  | .empty => 1
  | .join _ => 2
  | .flag _ => 3
  | .rest _ => 3
  | .barrier _ _ => 4
  | .sleep _ => 5
  | .timeline _ _ _ _ _ => 5

/-- Every group rests after YIELD (R214). -/
def allRest (w : Warp) : Bool := !w.r.groups.isEmpty && w.r.groups.all fun g => match g.wait with
  | .rest _ => true
  | _ => false

/-- A warp that a pre-emption has stopped: at its bundle boundary, not in a handler, a loop warp after a KEND (R347). -/
def stopped (w : Warp) : Bool := w.stop && w.handlers.isEmpty && w.stepped.isNone && w.soft.isNone && match w.loop with
  | some q => q.closed
  | none => true

/-- A cause is to be taken at the next bundle boundary: the single step of a bundle whose trap has been handled, or a notice (R333,
R366). -/
def Warp.noticed (w : Warp) : Bool := !w.notices.isEmpty || (w.stepped.isSome && w.handlers.isEmpty)

/-- What a warp's turn is. -/
inductive Turn where
  /-- it has ended or is stopped -/
  | gone
  /-- all its groups wait, with the stall reason of the current one -/
  | waits (r : Stall)
  /-- another group of the ring is taken -/
  | rotate
  /-- a deferred fault or a notice is taken -/
  | defer
  /-- its next bundle is held or not yet due -/
  | held (r : Stall)
  /-- its next bundle comes from memory into the cache and the group's buffer -/
  | fetch (s : State)
  /-- its next bundle is due, and a bank delay or a latency holds it while it has the issue slot -/
  | delay (r : Stall)
  /-- its next bundle raises a precise cause -/
  | trap (s : State) (t : TrapInfo)
  /-- a source of its next bundle is empty -/
  | starve (s : State)
  /-- its next bundle issues -/
  | issue (s : State) (b : Bundle)

/-- The bundle of four raw syllables, whatever their fields; an unassigned opcode stands as its slot's NOP. -/
def rawBundle (bits : BitVec 256) : Bundle :=
  let raw := fun slot k => (rawSyllable slot (syllableOf bits k)).getD (slotNop slot)
  { v := raw .vector 0, m := raw .memory 1, e := raw .engine 2, c := raw .control 3 }

/-- The context of a bundle at issue warp time t. -/
def issueOf (pc : DWord) (bits : BitVec 256) (t : Nat) : Issue :=
  let c := ctlFields (syllableOf bits 3)
  { checked := false, pc := pc, imm := c.imm, immOk := opField (syllableOf bits 3) == 0, gap := c.gap.toNat, land := c.land,
    yield := c.yield, t := t, trap := none }

/-- The reason of a bundle that is not due, with the hold that also stops it: a split's cycles, then the gap (R295, R373). -/
def gapStall (w : Warp) (held : Option Stall) : Stall :=
  match held with
  | some 12 => if w.branch = 0 then 12 else 11
  | some r => r
  | none => if w.branch = 0 then 18 else 11

/-- The access of the bundle is performed as it issues: what else the bundle does, a return to the checkpoint could not undo. -/
def atOnce (w : Warp) (b : Bundle) : Bool := opensCheckpoint w b && lasting b

/-- What an access that is performed at once would meet before its bundle issues: `some` fault, or `none` where it has to wait; nothing
where it can be performed (R165, R346); a checkpoint of the part holds it where it writes (R388). (log 20, DEDUCED) -/
def earlyAccess (s : State) (w : Warp) (b : Bundle) : Option (Option TrapInfo) :=
  if !atOnce w b then none
  else if s.ckpt.isSome && ((memForm b.m).map fun m => m.kind.isWrite) == some true then some none
  else
    match view b.m, memForm b.m, shape b.m with
    | .syl _ _ f, some m, some h =>
      let id := s.nextId
      let o := memOpOf s w b.m f m (memScalar b.m h f) (w.r.active f.g1 f.g2)
      let t := (laneList o.lanes).foldl (fun s l => s.xlateLane id l) { s with mops := tput s.mops id o, nextId := id + 1 }
      let t := t.accessNow id s.free
      (match (tfind t.warps s.cur).bind fun x => (x.faults.find? fun q => q.op == id).map (faultInfo x) with
       | some i => some (some i)
       | none => match tfind t.mops id with
         | some o => if o.lanes &&& ~~~o.team = 0 then none else some none
         | none => none)
    | _, _, _ => none

/-- The precise trap of a fault in precise memory mode is taken at the issue warp time (R346). -/
def State.dueNow (s : State) : State := s.modCur fun w => { w with r := { w.r with due := w.r.wtime } }

/-- A bank of the sub-core's registers that the bundle reads holds an uncorrected error (R353). -/
def badRegister (s : State) (g : Nat) (w : Warp) (b : Bundle) : Option Nat :=
  if s.bad.isEmpty then none
  else (((bundleList b).flatMap fun i => operandsWide w i).flatMap operandVs).findSome? fun v =>
    let p := 4 * subOf g + v % 4
    if s.bad.contains (0, p) then some p else none

/-- The checks of a bundle that nothing holds: issue and register causes, an empty source, the other causes (R57, R334), an uncorrected
error in a register (R353), a fault in precise memory mode. -/
def checkedTurn (s : State) (w : Warp) (bits : BitVec 256) (b : Bundle) : Turn :=
  match firstRaise (earlyRaises s w (issueCause s w bits) (bundleList b)) with
  | some c => .trap s c
  | none =>
    if sourceEmpty w (bundleList b) then .starve s
    else
      match firstRaise ((bundleList b).flatMap (otherRaises s w) ++ entryRaises s w), badRegister s s.cur w b with
      | some c, _ => .trap s c
      | none, some p => .trap (s.meetError 0 p s.issue.pc.toNat w.lnid.toNat) (raise1 s.issue.pc 0x140 w.r.group.mask 0)
      | none, none =>
        match earlyAccess s w b with
        | some (some c) => .trap s.dueNow c
        | some none => .held 9
        | none => .issue s b

/-- A fetched bundle at the present warp time: its holds, then its delays, then its checks (R13, R57). -/
def bundleTurn (s : State) (g : Nat) (w0 : Warp) (bits : BitVec 256) : Turn :=
  let b := rawBundle bits
  let s := { s with issue := { issueOf w0.r.group.pc bits w0.r.wtime with peer := s.free } }
  let w := w0.at w0.r.wtime
  let held := bundleHeld s g w b
  if w.r.wtime < w.r.due then .held (gapStall w held)
  else
    match held with
    | some r => .held r
    | none =>
      match slotDelay w b with
      | some r => .delay r
      | none => checkedTurn s w bits b

/-- What a fetch finds: a failed translation, the bundle at hand, one that memory sends, or no slot of its partition in which to go to
memory (R291, R369, R373). -/
inductive Fetched where
  | wait
  | fault (reason : Nat)
  | hit (bits : BitVec 256)
  | miss (bits : BitVec 256)

/-- The next bundle of the current group: from its buffer, the instruction cache, or memory. (log 25, DEDUCED) -/
def State.nextBundle (s : State) (g : Nat) (w : Warp) : State × Fetched :=
  let q := w.r.group
  match q.ahead.find? fun e => e.1 == q.pc with
  | some e => (s, .hit e.2)
  | none =>
    let hit := (s.cluster (clusterOf g)).icache.any fun e => e.1 == codeKey w.ctx q.pc.toNat
    if !slotOpen s w.part && (!hit || needsWalk s (clusterOf g) w.who .fetch q.pc.toNat) then (s, .wait) else
    match s.fetchAt (clusterOf g) w.who q.pc.toNat with
    | (s, .error e) => (s, .fault e)
    | (s, .ok bits) => (s, if hit then .hit bits else .miss bits)

/-- A bundle from the instruction cache of a cluster whose data has an uncorrected error: its line is dropped (R333; log 56, DEDUCED). -/
def State.dropCode (s : State) (g : Nat) (w : Warp) : State :=
  (s.meetError 5 (clusterOf g) w.r.group.pc.toNat w.lnid.toNat).modCluster (clusterOf g) fun c =>
    { c with icache := c.icache.filter fun e => e.1 ≠ codeKey w.ctx w.r.group.pc.toNat }

/-- The bundle at hand comes from an instruction cache with an uncorrected error. -/
def codeBad (s : State) (g : Nat) (w : Warp) : Bool :=
  s.bad.contains (5, clusterOf g) && !w.r.group.ahead.any fun e => e.1 == w.r.group.pc

/-- A missed bundle is in the group's buffer, and from the next cycle on in the instruction cache. (log 25, DEDUCED) -/
def State.bufferBundle (s : State) (g : Nat) (bits : BitVec 256) : State :=
  s.modWarp g fun w =>
    { w with missed := true, r := w.r.setGroup { w.r.group with ahead := [(w.r.group.pc, bits)] } }

/-- What warp g does next: a trap of its last bundle or a deferred fault before its bundle, else the bundle of its current group (R294, R335). -/
def boundaryTurn (s : State) (g : Nat) (w : Warp) : Turn :=
  if w.ended || w.halted then .gone
  else if w.soft.isSome then (if w.r.wtime < w.r.due then .held (gapStall w none) else .defer)
  else if !w.faults.isEmpty && !faultsReady s g w then .held 16
  else if !w.faults.isEmpty || w.noticed then (if w.r.wtime < w.r.due && (faultCheckpoint w).isNone then .held (gapStall w none) else .defer)
  else if stopped w then .gone
  else
    let q := w.r.group
    let other := findRing w.r.groups Group.ready (w.r.cur + 1) (w.r.groups.length - 1)
    if !q.ready then (if other.isSome then .rotate else .waits (if allRest w then 15 else waitStall q.wait))
    else if 256 ≤ w.burst ∧ other.isSome then .rotate
    else
      let s := { s with cur := g, issue := { Issue.idle with pc := q.pc, t := w.r.wtime } }
      if w.missed then .held 17
      else
        match s.nextBundle g w with
        | (_, .wait) => .held 17
        | (s, .fault e) =>
          if w.r.wtime < w.r.due then .held (gapStall w none)
          else
            .trap s { cause := 0x063 + 4 * e, id := 0, pc := q.pc.toNat, lanes := q.mask, va := q.pc.toNat, reasons := 0 }
        | (s, .miss bits) => .fetch (s.bufferBundle g bits)
        | (s, .hit bits) =>
          if codeBad s g w then
            (if w.r.wtime < w.r.due then .held (gapStall w none) else .trap (s.dropCode g w) (raise1 q.pc 0x145 q.mask 0))
          else bundleTurn s g w bits

/-- The turn of warp g: a trap writes its save area in a slot of the partition, while no checkpoint of the part holds it (R291, R388;
log 67, DEDUCED). -/
def warpTurn (s : State) (g : Nat) (w : Warp) : Turn :=
  match boundaryTurn s g w with
  | .trap t c => if writesShut s w.part then .held 16 else .trap t c
  | .defer => if writesShut s w.part then .held 16 else .defer
  | x => x

/-- GROUP_ROTATION (R294). -/
def State.rotateGroup (s : State) (g : Nat) : State :=
  match tfind s.warps g with
  | none => s
  | some w =>
    let q := w.r.group
    let other := findRing w.r.groups Group.ready (w.r.cur + 1) (w.r.groups.length - 1)
    if other.isSome && (!q.ready || decide (256 ≤ w.burst)) then s.setWarp g { w with r := w.r.rotate, burst := 0 } else s

/-! ### The selector (R292, R293) -/

/-- Warp wid of team t has arrived at the present phase of barrier b. -/
def arrivedAt (s : State) (t : Team) (b : Nat) (w : Warp) : Bool :=
  (t.bar b).arrived.getLsbD w.wid || (t.bar b).warpArrived w.wid w.live (opDone s)

/-- The priorities of the warps that wait at a barrier of the team at which w has not arrived. -/
def inherited (s : State) (w : Warp) : List Nat :=
  match tfind s.teams w.team with
  | none => []
  | some t => s.warps.flatMap fun e =>
      if e.2.team ≠ w.team then []
      else if e.2.r.groups.any fun q => match q.wait with
          | .barrier b p => p == (t.bar b).phase && !arrivedAt s t b w
          | _ => false
      then [e.2.prio] else []

def effectivePrio (s : State) (w : Warp) : Nat := (inherited s w).foldl max w.prio

/-- Candidate a is taken before candidate b. -/
def takenFirst (s : State) (a b : Nat × Warp) : Bool :=
  if a.2.starved != b.2.starved then a.2.starved
  else if a.2.starved then decide (a.2.age < b.2.age) || (a.2.age == b.2.age && decide (a.1 < b.1))
  else if a.2.yieldHint != b.2.yieldHint then b.2.yieldHint
  else
    let p := effectivePrio s a.2
    let q := effectivePrio s b.2
    if p ≠ q then decide (q < p) else decide (a.2.age < b.2.age) || (a.2.age == b.2.age && decide (a.1 < b.1))

/-- The candidate that the selector takes. -/
def selected (s : State) : List ((Nat × Warp) × Turn) → Option ((Nat × Warp) × Turn)
  | [] => none
  | c :: t =>
    match selected s t with
    | none => some c
    | some d => if takenFirst s c.1 d.1 then some c else some d

/-- STARVATION_BOUND (R293). -/
def State.starvation (s : State) (g : Nat) : State :=
  s.modWarp g fun w => if 1024 ≤ w.passed then { w with starved := true } else w

/-! ### Issue -/

/-- Real cycles after its own for which a bundle occupies the vector unit, the special-function pipe and the matrix unit (R101,
R185). -/
def occupies (b : Bundle) (fmt : DWord) : Nat × Nat × Nat :=
  let lanes := !scalarVec b.v fmt
  (if lanes && !isNop b.v && vectorClass b.v fmt == 2 then 1 else 0, if lanes && usesSf b.v then 3 else 0,
   if isMma b.e then 1 else 0)

/-- The bundle's registers count as written after every checkpoint that stands. -/
def stampCheckpoints (w : Warp) (b : Bundle) (l : List Checkpoint) : List Checkpoint :=
  l.map fun c => { c with wrote := (c.wrote ++ bundleWrites w b).dedup }

/-- The bundle of warp cur issues: permits, units, sketches, the checkpoint; then its four syllables run. -/
def State.beginIssue (s : State) (b : Bundle) : State :=
  match s.curWarp with
  | none => s
  | some w0 =>
    let g := s.cur
    let w := w0.at s.issue.t
    let u := occupies b w.r.fmt
    let cost := bundleCost b w.r.fmt
    let s := s.modSub (subOf g) fun x =>
      { x with spent := cost, issuer := some g, keep := none, newV := u.1, newS := u.2.1, newM := u.2.2 }
    let once := atOnce w b
    let base := s.free
    let s := if once then { s with free := s.free + 1024 } else s
    let s := s.sketchEvent (clusterOf g) 0 s.issue.pc.toNat 1
    let s := match w.record with
      | some r => if w.handlers.isEmpty then { s with dealt := terase s.dealt (recKey w.ctx r.toNat) } else s
      | none => s
    let s := s.modWarp g fun c =>
      { c with starved := false,
               checkpoint := stampCheckpoints w b (if opensCheckpoint w b then c.checkpoint ++
                 [{ seq := c.memSeq, pc := s.issue.pc, regs := c.r, wrote := [], level := c.level, handlers := c.handlers,
                    holdOp := c.holdOp, holdEng := c.holdEng, stepped := c.stepped }] else c.checkpoint) }
    { s with issue := { s.issue with checked := true, atOnce := if once then some base else none } }

/-- The bundle has issued. -/
def State.endIssue (s : State) : State := { s with issue := { s.issue with checked := false, atOnce := none } }

/-- What the part does next by itself, before any internal event: the turns of the resident warps. -/
inductive Plan where
  | done (s : State)
  | event (i : Instr)
  | issue (s : State) (b : Bundle)
  | idle

/-- Warp g has the issue slot of its sub-core in this cycle; with `keep` it keeps it for the next (R24, R292). -/
def State.takeSlot (s : State) (g : Nat) (keep : Bool) : State :=
  s.modSub (subOf g) fun x => { x with issuer := some g, keep := if keep then some g else none }

/-- The current group waits for an empty source. The cycles that its bundle has been held stand: the warp's next bundle is due
at the present warp time, and the bank delay of this one has run (R13, R24, R26). (log 16, DEDUCED) -/
def Warp.blockEmpty (w : Warp) : Warp :=
  { w with r := { (w.r.setGroup { w.r.group with wait := .empty, paid := true }) with due := w.r.wtime } }

/-- The cluster's clock runs and is not stretched (R361, R363). -/
def clusterRuns (s : State) (cl : Nat) : Bool := !(s.cluster cl).retention && (s.cluster cl).stretch == 0

def turns (s : State) : List ((Nat × Warp) × Turn) :=
  (s.warps.filter fun e => clusterRuns s (clusterOf e.1)).map fun e => (e, warpTurn s e.1 e.2)

/-- A turn that needs no issue slot. -/
def sideTurn (c : (Nat × Warp) × Turn) : Option Plan :=
  match c.2 with
  | .rotate => some (.event (.groupRotation c.1.1))
  | .defer => some (.event (.deferredFaultTrap c.1.1))
  | .starve s => some (.done (s.modCur Warp.blockEmpty))
  | .fetch s => some (.done s)
  | _ => none

/-- A turn that takes its sub-core's issue slot. -/
def wantsSlot (t : Turn) : Bool :=
  match t with
  | .delay _ => true
  | .trap _ _ => true
  | .issue _ _ => true
  | _ => false

/-- The sub-core's issue slot is free in this cycle, and no higher sub-core of the cluster has issued: requests of one real cycle are
taken in ascending sub-core number (R253). -/
def subOpen (s : State) (n : Nat) : Bool :=
  (s.sub n).issuer.isNone && (List.range 4).all fun k => decide (k ≤ n % 4) || (s.sub (n / 4 * 4 + k)).issuer.isNone

/-- The eligible warps of the sub-cores whose issue slot is free in this cycle. -/
def contenders (s : State) (ts : List ((Nat × Warp) × Turn)) : List ((Nat × Warp) × Turn) :=
  ts.filter fun c => wantsSlot c.2 && subOpen s (subOf c.1.1)

/-- Those of one sub-core between which its selector chooses: the warp that keeps the slot alone, if there is one (R292). -/
def rivals (s : State) (sub : Nat) (cs : List ((Nat × Warp) × Turn)) : List ((Nat × Warp) × Turn) :=
  let cs := cs.filter fun d => subOf d.1.1 == sub
  match cs.find? fun d => (s.sub sub).keep == some d.1.1 with
  | some d => [d]
  | none => cs

/-- What the first sub-core with an eligible warp does. -/
def issuePlan (s : State) (ts : List ((Nat × Warp) × Turn)) : Plan :=
  match contenders s ts with
  | [] => .idle
  | c :: cs =>
    match selected s (rivals s (subOf c.1.1) (c :: cs)) with
    | some (d, .delay _) => .done (s.takeSlot d.1 true)
    | some (d, .trap s t) => .done (takeTrap ((s.takeSlot d.1 false).modSub (subOf d.1) fun x => { x with aborted := true }) t)
    | some (_, .issue s b) => .issue (s.beginIssue b) b
    | _ => .idle

def warpPlan (s : State) : Plan :=
  let ts := turns s
  match ts.findSome? sideTurn with
  | some p => p
  | none => issuePlan s ts

end Sys2Proof.Machine
end

