-- ==== Sys2Proof/Machine/Power.lean ====
section
/-! DEFINITION. Real time (R250, R251, R291, R357 to R364, R374, R380): the cycle of a cluster, the calendar, permits, stretching,
frequency, retention, meters and modes. -/

namespace Sys2Proof.Machine

/-! ### The cycle of a cluster (R358, R361, R374) -/

/-- Bit of a free value. -/
def freeBit (s : State) : Bool := (Config.freeValue s.free).getLsbD 0

/-- The power mode in force on a cluster. -/
def clusterMode (s : State) (cl : Nat) : Nat := (s.part (clusterPart s cl)).mode

/-- The stall reason of a turn; none for a warp that is eligible or moves on without the issue slot. (log 53, DEDUCED) -/
def turnStall (s : State) (g : Nat) (t : Turn) : Option Stall :=
  match t with
  | .gone => some (if (match tfind s.warps g with
      | some w => w.ended
      | none => true) then 9 else 16)
  | .waits r => some r
  | .held r => some r
  | .delay r => if (s.sub (subOf g)).issuer = some g then some r else none
  | .starve _ => some 1
  | .fetch _ => some 17
  | _ => none

/-- The turns of the warps of sub-core n. -/
def subTurns (s : State) (n : Nat) : List ((Nat × Warp) × Turn) :=
  (s.warps.filter fun e => subOf e.1 == n).map fun e => (e, warpTurn s e.1 e.2)

/-- The oldest of the warps that do not rest. -/
def oldestStall (s : State) : List ((Nat × Warp) × Turn) → Option ((Nat × Warp) × Turn)
  | [] => none
  | c :: t =>
    match oldestStall s t with
    | none => if allRest c.1.2 then none else some c
    | some d => if allRest c.1.2 then some d else if d.1.2.age < c.1.2.age then some d else some c

/-- Warps of sub-core n that are eligible in the cycle or have issued in it: one that has left its slot since is among them (R374). -/
def eligibleWarps (s : State) (n : Nat) (ts : List ((Nat × Warp) × Turn)) : Nat :=
  (ts.filter fun c => (s.sub n).issuer == some c.1.1 || wantsSlot c.2).length +
    (match (s.sub n).issuer with
     | some g => if ts.any fun c => c.1.1 == g then 0 else 1
     | none => 0)

/-- Count one cycle of sub-core n in its histogram (R374): `stretched` tells a stretched cycle. -/
def countCycle (s : State) (n : Nat) (stretched : Bool) (ts : List ((Nat × Warp) × Turn)) (h : Table Nat) : Table Nat :=
  let k := if stretched then 0 else eligibleWarps s n ts
  let h := tset 0 h (min k 16) ((tget 0 h (min k 16) + 1) % 2 ^ 64)
  if k ≠ 0 then h
  else
    let r := if ts.isEmpty then 0
      else
        match oldestStall s ts with
        | none => 15
        | some c => if stretched then 14 else (turnStall s c.1.1 c.2).getD 16
    tset 0 h (24 + r) ((tget 0 h (24 + r) + 1) % 2 ^ 64)

/-- The stall that a warp of sub-core n is charged for the cycle: none for the one that issues, 16 for the one that takes a precise trap,
and a delay for the one that keeps the slot (R24, R295, R373). -/
def cycleStall (s : State) (n : Nat) (stretched : Bool) (c : (Nat × Warp) × Turn) : Option Stall :=
  if stretched then some 14
  else if (s.sub n).issuer = some c.1.1 ∧ (s.sub n).aborted then some 16
  else if (s.sub n).issuer = some c.1.1 ∧ (s.sub n).keep ≠ some c.1.1 then none
  else turnStall s c.1.1 c.2

/-- The hold of a turn is that of a SYNC with children outstanding (R218, R280). -/
def heldSync (s : State) (g : Nat) (w : Warp) (t : Turn) : Bool :=
  match t with
  | .held 12 =>
    (match (s.nextBundle g w).2 with
     | .hit bits => (match (rawBundle bits).c with
       | .sync _ => w.record.isSome && w.loop.isNone && ownJoin s g w != 0
       | _ => false)
     | _ => false)
  | _ => false

/-- The registers at warp time c: where a group waits for a full register, what has been written before is in place (R17, R26). -/
def Regs.passTo (r : Regs) (c : Nat) : Regs :=
  let r := { r with wtime := c }
  if r.groups.any fun g => decide (g.wait = .empty) then r.settleTrap c else r

/-- A warp at the end of an unstretched cycle: warp time advances while its bundle is not due and in the cycles in which it has
the issue slot (R13); an eligible warp that was not taken has been passed over once more in a row (R293). -/
def Warp.endCycle (w : Warp) (took kept eligible joins : Bool) (stall : Option Stall) : Warp :=
  { w with r := if decide (w.r.wtime < w.r.due) || (took && kept) then w.r.passTo (w.r.wtime + 1) else w.r,
           missed := false, joining := w.joining || joins, branch := if stall = some 11 then w.branch - 1 else w.branch,
           passed := if eligible && !took then w.passed + 1 else 0 }

/-- Charge the stall of each resident warp to the sketches (R295, R371), let its warp time advance, and count those passed over;
one that reaches the bound is taken next (R293). A stretched cycle, in which no warp can issue, neither breaks nor extends the run of cycles.
(log 95, DEDUCED) -/
def State.chargeStalls (s : State) (n : Nat) (stretched : Bool) (ts : List ((Nat × Warp) × Turn)) : State :=
  ts.foldl (fun t c =>
    let pc := c.1.2.r.group.pc.toNat
    let stall := cycleStall s n stretched c
    let took := (s.sub n).issuer == some c.1.1
    let t := match stall with
      | some r => (t.sketchEvent (n / 4) (0x10 + r) pc 1).sketchEvent (n / 4) 3 pc (if r = 6 then 1 else 0)
      | none => t
    if stretched then t
    else
      let t := t.modWarp c.1.1 fun w => w.endCycle took ((s.sub n).keep == some c.1.1) (wantsSlot c.2) (heldSync s c.1.1 c.1.2 c.2) stall
      if decide (1023 ≤ c.1.2.passed) && wantsSlot c.2 && !took && !c.1.2.starved then t.first [.starvationBound c.1.1] else t) s

/-- The bundles that the warps of sub-core n have missed in the cycle come into the instruction cache. (log 25, DEDUCED) -/
def State.fillMissed (s : State) (n : Nat) : State :=
  s.warps.foldl (fun t e => match e.2.r.group.ahead with
    | (pc, b) :: _ => if subOf e.1 = n ∧ e.2.missed then t.fillCode (n / 4) (codeKey e.2.ctx pc.toNat) b else t
    | [] => t) s

/-- The end of a real cycle of one sub-core. -/
def State.cycleSub (s : State) (n : Nat) (stretched : Bool) : State :=
  let ts := subTurns s n
  let rates := permitRates (clusterMode s (n / 4))
  let h := countCycle s n stretched ts (s.sub n).hist
  let paid := fun (x : SubCore) => (x.permits.zip x.spent).map fun (e : Nat × Nat) => e.1 - e.2
  let refill := fun (p : List Nat) => ((p.zip rates).zip permitCaps).map fun (e : (Nat × Nat) × Nat) => min e.2 (e.1.1 + e.1.2)
  ((s.fillMissed n).chargeStalls n stretched ts).modSub n fun x =>
    { x with hist := h, issuer := none, aborted := false, busyV := max (x.busyV - 1) x.newV, busyS := max (x.busyS - 1) x.newS,
             busyM := max (x.busyM - 1) x.newM, newV := 0, newS := 0, newM := 0, spent := [0, 0, 0, 0],
             permits := if stretched then paid x else refill (paid x) }

/-- The cluster of a TSET: its team's, on which a saved team leaves it (R309, R348). -/
def tsetCluster (s : State) (q : TSet) : Nat := ((tfind s.teams q.team).map fun t => t.cluster).getD (clusterOf q.warp)

/-- An engine operation of the cluster is in flight: a claim of its warps and a request for a tile among them. -/
def engineBusy (s : State) (cl : Nat) : Bool :=
  let ours := fun g : Nat => clusterOf g == cl
  (s.cmsgs.any fun e => match e.2 with
    | .claim _ _ _ _ _ g _ _ | .object _ _ _ _ g _ _ _ _ | .read _ _ g _ _ | .poll _ g _ | .away _ g _ | .outcome (.warp g _) _ => ours g
    | _ => false) ||
  (s.proposals.any fun e => e.2.state == 0 && match e.2.claimant with
    | .warp g _ => ours g
    | _ => false) ||
  ((List.range 4).any fun k => (s.sub (4 * cl + k)).tiles.any fun t => !t.2.queue.isEmpty) ||
  (s.copies.any fun e => e.2.cluster == cl) || (s.mats.any fun e => e.2.sub / 4 == cl) ||
  (s.walks.any fun e => e.2.cluster == cl) || (s.tsets.any fun e => tsetCluster s e.2 == cl) ||
  (s.deals.any fun e => e.2.cluster == cl) || (s.cuts.any fun e => e.2.cluster == cl) || s.pushes.any fun e => clusterOf e.2.warp == cl

/-- The cluster holds no resident warp, no kitty record and no engine operation. -/
def clusterIdle (s : State) (cl : Nat) : Bool :=
  (s.warps.all fun e => clusterOf e.1 != cl) && (s.cluster cl).kitty.isEmpty && !engineBusy s cl

/-- PERMIT_REFILL: the end of a real cycle of a cluster. A droop stretches the cycles after it, 8 to 256 of them, how many is a
free value; after a stretch of 256 the clock steps down (R361). (log 23, DESIGN CHOICE; log 46, DESIGN CHOICE) -/
def State.endCycle (s : State) (cl : Nat) : State :=
  let c := s.cluster cl
  if c.retention then s
  else
    let stretched := c.stretch != 0
    let last := decide (256 ≤ c.stretch)
    let s := (List.range 4).foldl (fun s k => s.cycleSub (4 * cl + k) stretched) s
    let idle := if clusterIdle s cl then c.idle + 1 else 0
    let stop := stretched && decide (8 ≤ c.stretch) && freeBit s
    let s := if stretched then { s with free := s.free + 1 } else s
    let s := s.warps.foldl (fun s e => if clusterOf e.1 = cl then s.releaseBarriers e.1 else s) s
    let d := s.die (cl / 80)
    let s := s.modCluster cl fun c =>
      { c with lreqRead := d.lreq, rreqRead := d.rreq, cycle := (c.cycle + 1) % 2 ^ 64, idle := idle, droop := false,
               freq := c.nextFreq.getD c.freq, nextFreq := none, tileTaken := [],
               stretch := if !stretched then (if c.droop then 1 else 0) else if last then 257 else if stop then 0 else c.stretch + 1 }
    if last then s.first [.fllStepDown cl] else s

/-- DROOP_STRETCH (R361): the clock is stretched from the next cycle on. (log 46, DESIGN CHOICE) -/
def State.startStretch (s : State) (cl : Nat) : State :=
  let c := s.cluster cl
  if c.retention || c.stretch != 0 then s else s.setCluster cl { c with droop := true }

/-- FLL_STEP_DOWN (R361): after a stretch of 256 cycles. (log 9, DESIGN CHOICE) -/
def State.stepDown (s : State) (cl : Nat) : State :=
  let c := s.cluster cl
  if c.stretch ≠ 257 then s else s.setCluster cl { c with stretch := 0, freq := c.freq - 1 }

/-- Clock code of a mode's ceiling (R359). -/
def clockCeiling (mode : Nat) : Nat := if mode < 2 then 64 else if mode = 2 then 48 else 32

/-- FREQUENCY_CHANGE (R362): no higher than the mode's ceiling, at the cluster's next cycle boundary. (log 9, DESIGN CHOICE) -/
def State.changeFreq (s : State) (cl code : Nat) : State :=
  if code ≤ clockCeiling (clusterMode s cl) then s.modCluster cl fun c => { c with nextFreq := some code } else s

/-! ### Retention (R354, R363) -/

/-- TIME until a group's wake or deadline; none for a group that waits otherwise. -/
def Wait.wakeIn (now : Nat) : Wait → Option Nat
  | .sleep t => some (t - now)
  | .timeline (some d) _ _ _ _ => some (d - now)
  | .timeline none _ _ _ _ => some (2 ^ 64)
  | _ => none

/-- Every resident group waits in state time for 50 microseconds or more. -/
def longWait (s : State) (cl : Nat) : Bool :=
  s.warps.all fun e => clusterOf e.1 != cl || (!e.2.ended && e.2.r.groups.all fun g =>
    match Wait.wakeIn (timeOf s (cl / 80)) g.wait with
    | some n => decide (50000 ≤ n)
    | none => false)

/-- A steal request has come, or some resident group does not wait in state time, or wakes within 2 microseconds. (log 66, DEDUCED) -/
def wakeNear (s : State) (cl : Nat) : Bool :=
  (s.cluster cl).asked || s.warps.any fun e => clusterOf e.1 == cl && (e.2.ended || e.2.r.groups.any fun g =>
    match Wait.wakeIn (timeOf s (cl / 80)) g.wait with
    | some n => decide (n ≤ 2000)
    | none => true)

/-- RETENTION_ENTRY (R363). (log 66, DEDUCED) -/
def State.enterRetention (s : State) (cl : Nat) : State :=
  let c := s.cluster cl
  if (clusterIdle s cl && decide (4096 ≤ c.idle)) || (!clusterIdle s cl && longWait s cl && !engineBusy s cl && s.warps.any fun e => clusterOf e.1 == cl) then
    s.setCluster cl { c with retention := true }
  else s

/-- The launch of a task record in a partition. -/
def recordLaunch (s : State) (cl part key : Nat) : Option Nat :=
  match (recordAt s cl part key).2 with
  | some r => (launchByLnid s part r.lnid).map (·.1)
  | none => none

/-- A launch is failed: its signals are withheld and the completion interrupt is raised with a cause (R354, R391). -/
def State.failLaunch (s : State) (id cause : Nat) : State :=
  match tfind s.launches id with
  | none => s
  | some q => if q.failed then s else (s.modLaunch id fun q => { q with failed := true }).interrupt 0 q.lnid cause

/-- The retention parity of a cluster failed (R354): its warps end with 0x14F, their launches fail, and the cluster is offlined
if its test fails. -/
def State.loseCluster (s : State) (cl : Nat) (testOk : Bool) : State :=
  let part := clusterPart s cl
  let here := s.warps.filter fun e => clusterOf e.1 == cl && !e.2.ended
  let ids := (here.map fun e => e.2.launch) ++ (s.cluster cl).kitty.filterMap (recordLaunch s cl part)
  let s := here.foldl (fun s e =>
    (s.endWarp e.1 fun w => { w with halted := true, faults := [], notices := [] }).modTeam e.2.team fun t =>
      { t with exited := t.exited ||| laneBit e.2.wid }) s
  let s := ids.dedup.foldl (fun s id => s.failLaunch id 0x14F) s
  let s := s.logError (cl / 80) 0x14F (if testOk then 1 else 3) (identOf (64 * cl) part) cl 0
  if testOk then s else s.modCluster cl fun c => { c with offline := true }

/-- RETENTION_EXIT (R363). -/
def State.leaveRetention (s : State) (cl : Nat) (parityOk testOk : Bool) : State :=
  let c := s.cluster cl
  if !c.retention then s
  else
    let s := s.setCluster cl { c with retention := false, asked := false, idle := 0 }
    if parityOk then s else s.loseCluster cl testOk

/-! ### Buckets (R250, R251) -/

/-- The tokens of a port among those of a request; none where it needs none there. -/
def tokensAt (port : Nat) (ts : List (Nat × Nat)) : Option Nat :=
  match (ts.filter fun e => e.1 == port).foldl (fun n e => n + e.2) 0 with
  | 0 => none
  | n => some n

/-- The requests of a context that wait at a port, with the tokens that each needs there: accesses, reductions that gather at the port of
their own die, posted writes, copies (R250). -/
def portWants (s : State) (ctx port : Nat) : List (Nat × Nat) :=
  (s.mops.filterMap fun e =>
    if e.2.ctx ≠ ctx ∨ e.2.kind.isTile then none
    else if e.2.kind = .pref then ((laneList e.2.lanes).findSome? fun l => (prefetchLine s e.2 l).2.bind fun line =>
      tokensAt port [(portOf e.2.cluster (128 * line), 4)]).map fun n => (e.1, n)
    else ((laneList (e.2.lanes &&& e.2.xlated &&& ~~~e.2.reported)).findSome? fun l =>
      (tokensAt port (laneTokens s e.2 l)).or (if gatherable s e.2 l then tokensAt port (gatherTokens s e.2 l) else none)).map fun n => (e.1, n)) ++
  (s.posted.filterMap fun e => if e.2.ctx = ctx ∧ e.2.cluster / 80 = port ∧ !e.2.sent then some (e.1, e.2.units) else none) ++
  s.copies.filterMap fun e => if e.2.ctx = ctx ∧ e.2.stage = 2 then (tokensAt port (copyTokens s e.2)).map fun n => (e.1, n) else none

/-- Sixteenths of a token that the oldest waiting request of a context at a port still needs. -/
def bucketNeed (s : State) (ctx port : Nat) : Nat :=
  let c := s.context ctx
  match (portWants s ctx port).foldl (fun (best : Option (Nat × Nat)) e => match best with
    | none => some e
    | some b => if e.1 < b.1 then some e else best) none with
  | none => 0
  | some e => 16 * e.2 - c.balance port

/-- A pool of overflow: context and amount. -/
abbrev Pool := List (Nat × Nat)

/-- A borrower may draw from a lender's overflow (R251). -/
def mayBorrow (s : State) (a b : Nat) : Bool :=
  (s.context a).part == (s.context b).part || ((s.context a).share && (s.context b).share)

/-- Draw up to n from the overflow of the contexts that may lend: the pool left and what was drawn. -/
def drawFrom (s : State) (ctx : Nat) : Nat → Pool → Pool × Nat
  | n, [] => ([], 0 * n)
  | n, e :: t =>
    let k := if mayBorrow s ctx e.1 then min n e.2 else 0
    let r := drawFrom s ctx (n - k) t
    ((e.1, e.2 - k) :: r.1, k + r.2)

/-- The bucket of a context at a port gains n sixteenths of a token. -/
def State.fillBucket (s : State) (ctx port n : Nat) : State :=
  let c := s.context ctx
  { s with ctxs := tset Context.absent s.ctxs ctx { c with used := tset 0 c.used port (tget 0 c.used port - n) } }

/-- Refill of one slot at one port: every bucket gains RATE sixteenths up to CAP; what does not fit is lent there in ascending context
number. (log 19, DEDUCED) -/
def State.refillPort (s : State) (port : Nat) : State :=
  let live := s.ctxs.filter fun e => e.2.valid && e.2.cap != 0
  let pool : Pool := live.map fun e => (e.1, e.2.rate - tget 0 e.2.used port)
  let s := live.foldl (fun s e => s.fillBucket e.1 port e.2.rate) s
  (live.foldl (fun (r : State × Pool) e =>
    let need := bucketNeed r.1 e.1 port
    if need = 0 then r
    else
      let d := drawFrom r.1 e.1 need r.2
      (r.1.fillBucket e.1 port d.2, d.1)) (s, pool)).1

/-- BUCKET_REFILL: at a calendar slot of 2 ns (R250, R291), at the port of each die. -/
def State.nextSlot (s : State) : State := (List.range 4).foldl (fun s p => s.refillPort p) s

/-- One ns passes: device time goes on, and the TIME of each die with it, from 0 to 2 ns ahead, never back (R314). A slot begins
every 2 ns and a turn every 512 (R291); the claim messages of a claim slot are on their way when it ends (R315). (log 3, DESIGN CHOICE; log 23, DESIGN CHOICE) -/
def State.tick (s : State) : State :=
  let now := s.now + 1
  let carried := if claimSlot s then s.nextId else s.carried
  let ahead := fun d : Nat => (Config.freeValue (s.free + d)).toNat % 3
  let s := { s with now := now, carried := carried, free := s.free + 4 }
  let s := (List.range 4).foldl (fun t d => t.modDie d fun x => { x with time := max x.time (now + ahead d) }) s
  s.first ((if now % 2 = 0 then [.bucketRefill] else []) ++ if now % 512 = 0 then [.calendarTurn] else [])

/-! ### The turn (R285, R360, R364, R380) -/

/-- OVER of a partition's energy control. -/
def overBit (s : State) (p : Nat) : Bool := (sregGet s (sregKey 0x19A p) 0).getLsbD 2
def throttles (s : State) (p : Nat) : Bool := (sregGet s (sregKey 0x19A p) 0).getLsbD 1

/-- No clock of the partition passes the mode's ceiling (R362). -/
def State.clipClocks (s : State) (p mode : Nat) : State :=
  (List.range 320).foldl (fun s cl =>
    if clusterOwned s p cl then s.modCluster cl fun c =>
      { c with freq := min c.freq (clockCeiling mode), nextFreq := c.nextFreq.map fun n => min n (clockCeiling mode) } else s) s

/-- Every balance of the partition's sub-cores becomes its CAP and no clock passes the ceiling. -/
def State.resetBalances (s : State) (p mode : Nat) : State :=
  (List.range 320).foldl (fun s cl =>
    if clusterOwned s p cl then
      (List.range 4).foldl (fun s k => s.modSub (4 * cl + k) fun x => { x with permits := permitCaps, spent := [0, 0, 0, 0] }) s
    else s) (s.clipClocks p mode)

/-- The mode in force from this turn on: the forced one while OVER is 1 under THROT, else what was written last. -/
def State.turnMode (s : State) (p : Nat) : State :=
  let q := s.part p
  let force := throttles s p && overBit s p
  let m := if force then 3 else q.nextMode
  let s := s.setPart p { q with force := force, mode := m }
  if m = q.mode then s else s.resetBalances p m

/-- The meter of a partition is updated: OVER is set at the first update at or above the budget (R364). (log 47, DESIGN CHOICE; log 49, DEDUCED) -/
def State.turnMeter (s : State) (p : Nat) : State :=
  let q := s.part p
  let e := (q.emeter + Config.energyOfTurn s.turn p) % 2 ^ 64
  let reached := decide ((sregGet s (sregKey 0x199 p) (BitVec.allOnes 64)).toNat ≤ e)
  let s := s.setPart p { q with emeter := e, reported := reached }
  if reached && !q.reported then
    let c := sregGet s (sregKey 0x19A p) 0
    let s := s.setSreg (sregKey 0x19A p) 0 (c ||| 4)
    if c.getLsbD 0 then s.interrupt 1 (BitVec.ofNat 32 p) 0 else s
  else s

/-- A window of the hypervisor's block (R379). -/
def blockWindow (b : List Byte) (i : Nat) : Window :=
  let o := 0x100 + 32 * i
  let t := recField b (o + 16) 2
  { base := recField b o 8, size := recField b (o + 8) 8, target := t % 256, host := t.testBit 8, atomics := t.testBit 9,
    valid := t.testBit 15, lost := false }

/-- A context entry (R379): the bucket starts full when the entry changes. -/
def blockContext (b : List Byte) (i : Nat) (old : Context) : Context :=
  let o := 0x900 + 16 * i
  let w := recField b (o + 4) 4
  let c : Context := { part := recField b o 1 % 32, valid := (recField b o 1).testBit 7, cap := w % 2 ^ 16,
                       rate := bitsOf w 16 12, share := w.testBit 28, used := [] }
  if old.valid && old.cap == c.cap then { c with used := old.used } else c

/-- A partition record (R378), with the power state that it has. -/
def blockPart (b : List Byte) (p : Nat) (old : Partition) : Partition :=
  let o := 0x1900 + 256 * p
  { old with
    valid := (recField b (o + 0x99) 1).testBit 0, clusters := (List.range 4).map fun d => BitVec.ofNat 128 (recField b (o + 16 * d) 16),
    ranges := (List.range 4).map fun i => (recField b (o + 0x40 + 16 * i) 8, recField b (o + 0x48 + 16 * i) 8),
    windows := BitVec.ofNat 64 (recField b (o + 0x80) 8), feat := BitVec.ofNat 64 (recField b (o + 0x88) 8 % 256),
    keyQuota := (List.range 4).map fun d => recField b (o + 0x90 + 2 * d) 2,
    pinQuota := (List.range 4).map fun d => recField b (o + 0xA0 + 2 * d) 2 }

/-- The committed block takes effect (R380): every table changes at once, and no clock passes the ceiling of the partition that its cluster now belongs to (R362). -/
def State.applyBlock (s : State) (b : List Byte) : State :=
  let s := { s with calendar := (List.range 256).map fun i => recField b i 1, staged := none }
  let s := (List.range 64).foldl (fun s i => { s with windows := tset Window.absent s.windows i (blockWindow b i) }) s
  let s := (List.range 256).foldl (fun s i =>
    { s with ctxs := tset Context.absent s.ctxs i (if (recField b (0x900 + 16 * i) 1).testBit 7 then blockContext b i (s.context i)
                                                    else Context.absent) }) s
  let s := (List.range 24).foldl (fun s p => s.setPart p (blockPart b p (s.part p))) s
  let s := ((List.range 24).filter fun p => (s.part p).valid).foldl (fun s p => s.clipClocks p (s.part p).mode) s
  s.setSreg (sregKey 0x1E1 0) 0 (BitVec.ofNat 64 (2 * 2))

/-- CALENDAR_TURN: tables, modes, meters, the governor. -/
def State.beginTurn (s : State) : State :=
  let s := match s.staged with
    | some b => s.applyBlock b
    | none => s
  let ps := (List.range 24).filter fun p => (s.part p).valid
  let s := ps.foldl (fun s p => s.turnMode p) s
  let s := ps.foldl (fun s p => s.turnMeter p) s
  { s.governor with turn := s.turn + 1 }

end Sys2Proof.Machine
end

