-- ==== Sys2Proof/Machine/Preempt.lean ====
section
/-! DEFINITION. Pre-emption: the save of a team and its restore (R309, R311, R328, R347 to R351). -/

namespace Sys2Proof.Machine

/-- PSTAT of the writer's partition and die (R347). -/
def State.setPstat (s : State) (part die state reason : Nat) : State :=
  s.setPdReg 0x17A part die 0 (BitVec.ofNat 64 (state + 16 * reason))

def pstatBusy (s : State) (part die : Nat) : Bool := (pdReg s 0x17A part die 0).toNat % 4 == 1

/-- The warp slot that a PCTL value names for a save. -/
def pctlSlot (v : DWord) : Nat :=
  5120 * bitsOf v.toNat 9 2 + 64 * bitsOf v.toNat 2 7 + 16 * bitsOf v.toNat 11 2 + bitsOf v.toNat 13 4

/-- The cluster that a PCTL value names. -/
def pctlCluster (v : DWord) : Nat := 80 * bitsOf v.toNat 9 2 + bitsOf v.toNat 2 7

/-- The warps of a team that hold their slots. -/
def teamWarps (s : State) (tid : Nat) : List (Nat × Warp) := s.warps.filter fun e => e.2.team == tid

/-- PCTL_SAVE (R347): the team of the named warp stops. An OP above 1 is refused with a reason that no rule gives: a free value. -/
def State.pctlSave (s : State) (g : Nat) (v : DWord) : State :=
  match tfind s.warps g with
  | none => s
  | some w =>
    let d := dieOf g
    let refuse := fun n => s.setPstat w.part d 3 n
    if pstatBusy s w.part d then refuse 5
    else if 2 ≤ v.toNat % 4 then (refuse (freeWord s 0 % 16)).spend 1
    else if 80 ≤ bitsOf v.toNat 2 7 then refuse 1
    else
      match tfind s.warps (pctlSlot v) with
      | none => refuse 1
      | some x =>
        if w.level ≠ .hypervisor ∧ x.part ≠ w.part then refuse 1
        else if (tfind s.preempts x.team).isSome then refuse 5
        else
          let p : Preempt := { cluster := clusterOf (pctlSlot v), saved := false, warps := [], psave := pdReg s 0x178 w.part d 0,
                               die := d, part := w.part, ctx := w.ctx }
          let s := s.setPstat w.part d 1 0
          let s := { s with preempts := tput s.preempts x.team p }
          (teamWarps s x.team).foldl (fun s e => s.modWarp e.1 fun w => { w with stop := true }) s

/-! ### The area (R349, R350) -/

/-- A memory operation that a save does not wait for: its accesses have been performed at `.dev` and its results delivered, or it is a
fence or a PREF. (log 51, DEDUCED) -/
def opSaved (o : MemOp) : Bool :=
  match o.kind with
  | .fence | .rfence | .pref => true
  | .icinv => false
  | _ => decide (o.lanes &&& ~~~o.die = 0) && o.delivered && decide (o.watch = 0)

/-- Steps 1 and 2 of R348: every warp is frozen, its accesses are performed at `.dev`, its results delivered, its copies complete, and its
deck operations and deals with them; walks, their tables and operations on tiles may be in flight. (log 51, DEDUCED) -/
def teamQuiet (s : State) (tid : Nat) : Bool :=
  (teamWarps s tid).all fun e =>
    !e.2.ended && !e.2.halted && stopped e.2 && e.2.faults.isEmpty && e.2.notices.isEmpty && e.2.checkpoint.isEmpty &&
    (s.mops.all fun o => o.2.warp != e.1 || opSaved o.2) && (s.replies.all fun o => o.2.warp != e.1) && (s.copies.all fun o => o.2.warp != e.1) &&
    (s.deals.all fun o => o.2.warp != e.1) && (s.cuts.all fun o => o.2.warp != e.1) && (s.pushes.all fun o => o.2.warp != e.1) &&
    s.owed.all fun i => owedBy i != some e.1

def heldBy (s : State) (g t : Nat) : Bool := decide (((s.sub (subOf g)).tile t).token = .held g)

/-- Offset of the contents of each level 0 handle: handles and their offsets from `off` on. -/
def handleOffsets : Table Handle → Nat → List (Nat × Handle × Nat)
  | [], _ => []
  | (h, q) :: t, off => if q.level1 then (h, q, 0) :: handleOffsets t off else (h, q, off) :: handleOffsets t (off + q.grant)

/-- FLAGS of the team header. -/
def teamFlags (s : State) (t : Team) (ws : List (Nat × Warp)) : Nat :=
  let bit := fun (b : Bool) k => if b then 2 ^ k else 0
  bit (s.walks.any fun e => ws.any fun w => w.1 == e.2.warp) 0 +
  bit (ws.any fun w => w.2.f.any fun e => e.2.bound) 1 + bit (t.htab.any fun e => e.2.level1) 2 +
  bit (ws.any fun w => (List.range 32).any (heldBy s w.1)) 3 + bit (ws.any fun w => w.2.precise) 4

/-- The header; a team of tasks has KIND 0. HOME names the slots that a stage team keeps, too. (log 51, DEDUCED) -/
def teamHeader (s : State) (t : Team) (ws : List (Nat × Warp)) : Sparse :=
  let w := ws.head?.map (·.2)
  let kind := ((tfind s.launches t.launch).map fun q => q.kind).getD 0
  let home := t.place.foldl (fun n e => n + 4 ^ e.1 * (subOf e.2 % 4)) 0
  fieldAt 0 4 1 ++ fieldAt 4 1 t.warps ++ fieldAt 5 1 t.barriers ++ fieldAt 6 1 t.handles ++ fieldAt 7 1 (teamFlags s t ws) ++
  fieldAt 8 4 ((w.map fun w => w.lnid.toNat).getD 0) ++ fieldAt 0xC 4 t.index.toNat ++
  fieldAt 0x10 4 ((w.map fun w => latWord w.lat).getD 0) ++ fieldAt 0x14 1 (if t.isTask then 0 else kind) ++
  fieldAt 0x18 4 (identOf (64 * t.cluster) t.part) ++ fieldAt 0x20 8 (ws.foldl (fun n e => n + 2 ^ e.2.wid) 0) ++ fieldAt 0x28 16 home

/-- The groups of a warp that wait in the present phase of barrier b. -/
def waiterMask (w : Warp) (b phase : Nat) : Nat :=
  w.r.groups.zipIdx.foldl (fun n e => if e.1.wait = .barrier b phase then n + 2 ^ e.2 else n) 0

def barrierBytes (s : State) (tid : Nat) (t : Team) (ws : List (Nat × Warp)) : Sparse :=
  (List.range t.barriers).flatMap fun b =>
    let x := t.bar b
    let o := 0x100 + 256 * b
    fieldAt o 4 x.phase ++ fieldAt (o + 4) 1 x.count ++ fieldAt (o + 8) 8 (arrivedWarps s tid t b).toNat ++
      ws.flatMap fun e => fieldAt (o + 16 + 2 * e.2.wid) 2 (waiterMask e.2 b x.phase)

def handleBytes (t : Team) : Sparse :=
  (handleOffsets t.htab 0x4C4000).flatMap fun e => fieldAt (0x2100 + 16 * e.1) 8 (handleWord e.2.1) ++ fieldAt (0x2108 + 16 * e.1) 8 e.2.2

def contentBytes (t : Team) : Sparse :=
  (handleOffsets t.htab 0x4C4000).flatMap fun e =>
    if e.2.1.level1 then [] else e.2.1.bytes.map fun b => (e.2.2 + b.1, b.2)

/-- Images of the tiles that the team's warps hold. -/
def tileBytes (s : State) (ws : List (Nat × Warp)) : Sparse :=
  (List.range 4).flatMap fun k => (List.range 32).flatMap fun t =>
    ws.flatMap fun e =>
      if subOf e.1 % 4 = k ∧ heldBy s e.1 t then
        ((s.sub (subOf e.1)).tile t).elems.flatMap fun x => fieldAt (0x4000 + 2048 * (32 * k + t) + 8 * x.1) 8 x.2.toNat
      else []

/-- The token byte of tile t for warp g. -/
def tokenByte (s : State) (g t : Nat) : Nat :=
  let x := (s.sub (subOf g)).tile t
  if heldBy s g t then 1 + (if x.integer then 128 else 0) else if x.queue.any fun e => e.1 == g then 2 else 0

def joinWord (q : Join) : Nat :=
  q.expect.toNat + 2 ^ 64 * q.arrived.toNat + 2 ^ 128 * (q.jpc.toNat % 2 ^ 56) + (if q.valid then 2 ^ 191 else 0)

/-- A warp block (R350), by its offset: frozen as a trap to the supervisor would freeze it at its next due warp time. -/
def warpBlock (s : State) (g : Nat) (w0 : Warp) : Sparse :=
  let T := w0.r.due
  let r := w0.r.settleTrap T
  saveHead r w0.level .supervisor T (timeOf s (dieOf g)) 0 ++ groupTable r ++ saveTail r T ++
  ((List.range 48).flatMap fun n => fieldAt (0x4A00 + 4 * n) 4 (r.readS n).toNat) ++
  ((List.range 7).flatMap fun n => fieldAt (0x4AC0 + 8 * n) 8 (r.readP n).toNat) ++
  ((List.range 8).flatMap fun n => fieldAt (0x4B00 + 2 * n) 2 (flagWord (w0.flag n))) ++
  ((List.range 16).flatMap fun n => fieldAt (0x4B10 + 2 * n) 2 (r.region n)) ++
  fieldAt 0x4B30 4 (r.allot + 2 ^ 8 * r.rd + 2 ^ 16 * r.rsdepth + 2 ^ 24 * w0.prio) ++
  fieldAt 0x4B34 4 ((w0.loop.map fun q => q.iter).getD 0) ++ fieldAt 0x4B38 8 T ++
  ((List.range 7).flatMap fun n => fieldAt (0x4B40 + 4 * n) 4 (tget 0 r.shadow n).toNat) ++
  ((List.range 8).flatMap fun n => fieldAt (0x4B60 + 24 * n) 24 (joinWord (r.joinReg n))) ++
  ((List.range 32).flatMap fun t => fieldAt (0x4C20 + t) 1 (tokenByte s g t)) ++
  fieldAt 0x4C40 8 w0.lbase.toNat ++ fieldAt 0x4C48 8 w0.lsize ++
  (r.b.flatMap fun e => fieldAt (0x5000 + 8 * e.1) 8 e.2.toNat) ++
  (r.v.filter fun e => e.1 < 64 * r.allot).flatMap fun e => fieldAt (0x6000 + 4 * e.1) 4 e.2.toNat

def blockBase (wid : Nat) : Nat := 0x44000 + 0x12000 * wid

/-- The team area. -/
def teamArea (s : State) (tid : Nat) (t : Team) (ws : List (Nat × Warp)) : Sparse :=
  teamHeader s t ws ++ barrierBytes s tid t ws ++ handleBytes t ++ tileBytes s ws ++
  (ws.flatMap fun e => (warpBlock s e.1 e.2).map fun b => (blockBase e.2.wid + b.1, b.2)) ++ contentBytes t

/-! ### Renaming a warp in what outlives its slot -/

def renameToken (f : Nat → Nat) : Token → Token
  | .held g => .held (f g)
  | x => x

def renameClaimant (f : Nat → Nat) : Claimant → Claimant
  | .warp g n => .warp (f g) n
  | c => c

def renameMsg (f : Nat → Nat) : ClaimMsg → ClaimMsg
  | .claim g id k v m w n c => .claim g id k v m (f w) n { c with warp := f c.warp }
  | .object g id n m w r pc syl l => .object g id n m (f w) r pc syl l
  | .outcome c r => .outcome (renameClaimant f c) r
  | .read g k w r l => .read g k (f w) r l
  | .away d w n => .away d (f w) n
  | .poll g w r => .poll g (f w) r
  | x => x

def renameTile (f : Nat → Nat) (x : Tile) : Tile :=
  { x with token := renameToken f x.token, queue := x.queue.map fun e => (f e.1, e.2) }

/-- Warp g is named f g in what may be in flight at a save, tokens, claims and groups (R309, R311, R328, R348). -/
def State.renameWarps (s : State) (f : Nat → Nat) : State :=
  { s with
    mops := s.mops.map (fun e => (e.1, { e.2 with warp := f e.2.warp })),
    mats := s.mats.map (fun e => (e.1, { e.2 with warp := f e.2.warp })),
    walks := s.walks.map (fun e => (e.1, { e.2 with warp := f e.2.warp })),
    tsets := s.tsets.map (fun e => (e.1, { e.2 with warp := f e.2.warp })),
    subs := s.subs.map (fun e => (e.1, { e.2 with tiles := e.2.tiles.map fun x => (x.1, renameTile f x.2) })),
    cmsgs := s.cmsgs.map (fun e => (e.1, renameMsg f e.2)),
    proposals := s.proposals.map (fun e => (e.1, { e.2 with claimant := renameClaimant f e.2.claimant, release := { e.2.release with warp := f e.2.release.warp } })),
    cgroups := s.cgroups.map (fun e => (e.1, { e.2 with bound := e.2.bound.map fun b => (b.1, f b.2) })),
    pollers := s.pollers.map (fun e => (e.1, f e.2)),
    published := s.published.map (fun p => { p with warp := f p.warp }),
    warps := s.warps.map (fun e => (e.1, { e.2 with heard := e.2.heard.map fun h => { h with what := { h.what with warp := f h.what.warp } } })),
    posted := s.posted.map (fun e => (e.1, { e.2 with warp := e.2.warp.map f, copy := e.2.copy.map fun c => (f c.1, c.2) })) }

/-- Level 0 bytes that a team's handles take. -/
def levelZero (t : Team) : Nat := t.htab.foldl (fun n e => if e.2.level1 then n else n + e.2.grant) 0

/-- Step 4 of R348. -/
def State.parkTeam (s : State) (tid : Nat) (t : Team) (p : Preempt) (ws : List (Nat × Warp)) : State :=
  let s := ws.foldl (fun s e => s.traceRecord e.1 e.2 e.2.r.group.pc.toNat e.2.r.rstkWord 4 0) s
  let s := s.renameWarps fun g => match ws.find? fun e => e.1 == g with
    | some e => parkedWarp tid e.2.wid
    | none => g
  let s := s.modCluster t.cluster fun c =>
    { c with barriersUsed := c.barriersUsed - t.barriers, handlesUsed := c.handlesUsed - t.handles,
             spaceUsed := c.spaceUsed - levelZero t }
  let kept := ws.foldl (fun m e => tput m e.2.wid e.2) []
  let busy := (s.mats.filter fun e => decide (2 ^ 20 ≤ e.2.warp) && (e.2.warp - 2 ^ 20) / 64 == tid).map fun e => (e.2.sub, e.2.tile)
  { s with warps := s.warps.filter (fun e => e.2.team ≠ tid),
           teams := tput s.teams tid { t with live := [], place := [], parked := true },
           preempts := tput s.preempts tid { p with saved := true, warps := kept, busy := busy } }.setPstat p.part p.die 2 0

/-- PREEMPT_SAVE_COMPLETE: a team that has ended meanwhile is no such team. -/
def State.saveTeam (s : State) (tid : Nat) : State :=
  match tfind s.preempts tid with
  | none => s
  | some p =>
    if p.saved || writesShut s p.part || !teamQuiet s tid then s
    else
      let drop := fun (s : State) n => { s with preempts := terase s.preempts tid }.setPstat p.part p.die 3 n
      let ws := teamWarps s tid
      match tfind s.teams tid, ws with
      | some t, _ :: _ =>
        let who : Who := { ctx := p.ctx, part := p.part, level := .supervisor }
        (match writeVa p.cluster who s p.psave.toNat 0x5C4000 (teamArea s tid t ws) with
         | (s, none) => s.parkTeam tid t p ws
         | (s, some _) =>
           drop (ws.foldl (fun s e => s.modWarp e.1 fun w => { w with stop := false }) s) 6)
      | _, _ => drop s 1

/-! ### Restore (R351) -/

/-- The saved team that an area describes; the one saved at this address first. (log 52, DEDUCED) -/
def savedTeam (s : State) (rd : SaveReader) (part psave : Nat) (any : Bool) : Option (Nat × Preempt × Team) :=
  let fits := (s.preempts.filterMap fun e =>
    match tfind s.teams e.1 with
    | none => none
    | some t =>
      let lnid := (e.2.warps.head?.map fun w => w.2.lnid.toNat).getD 0
      if e.2.saved && (any || t.part == part) && lnid == rd 8 4 && t.index.toNat == rd 0xC 4 then some (e.1, e.2, t) else none)
  match fits.find? fun e => e.2.1.psave.toNat == psave with
  | some e => some e
  | none => fits.head?

/-- Registers per lane of each slot to place: those of its warp block, or the launch's for a slot without a warp. -/
def slotAllot (s : State) (rd : SaveReader) (t : Team) (wid : Nat) : Nat :=
  if (rd 0x20 8).testBit wid then rd (blockBase wid + 0x4B30) 1 else ((tfind s.launches t.launch).map fun q => q.allot).getD 0

/-- The warp numbers that hold a slot: those saved, and the open slots of a stage team. -/
def areaWids (rd : SaveReader) (t : Team) : List Nat :=
  (List.range 64).filter fun i => (rd 0x20 8).testBit i || t.open_.getLsbD i

/-- Places on the HOME sub-cores of cluster cl for (warp number, sub-core, allotment). -/
def placeHome (s : State) (cl : Nat) : List (Nat × Nat × Nat) → List (Nat × Nat × Nat) → Option (List (Nat × Nat × Nat))
  | [], done => some done
  | (wid, home, allot) :: t, done =>
    let sub := 4 * cl + home
    let used := (done.filter fun e => subOf e.2.1 == sub).foldl (fun n e => n + e.2.2) 0
    if (s.sub sub).noWarps || decide (freeRegs s sub < used + allot) then none
    else
      match ((List.range 16).map fun i => 16 * sub + i).find? fun g => !slotTaken s g && !done.any fun e => e.2.1 == g with
      | none => none
      | some g => placeHome s cl t (done ++ [(wid, g, allot)])

/-- A tile that the area says a warp holds is not free for it on the target sub-core. -/
def tileClash (s : State) (rd : SaveReader) (tid cl wid t : Nat) : Bool :=
  (rd (blockBase wid + 0x4C20 + t) 1) % 4 == 1 &&
    match ((s.sub (4 * cl + rd 0x28 16 / 4 ^ wid % 4)).tile t).token with
    | .free => false
    | .held g => g != parkedWarp tid wid
    | .retired => true

/-- The cluster that ORIGIN, an IDENT, names (R36, R349). -/
def originCluster (rd : SaveReader) : Nat := 80 * bitsOf (rd 0x18 4) 9 2 + bitsOf (rd 0x18 4) 2 7

/-- The reason to refuse, if there is one; else the places. (log 52, DEDUCED) -/
def restorePlaces (s : State) (rd : SaveReader) (tid cl : Nat) (t : Team) : Except Nat (List (Nat × Nat × Nat)) :=
  let wids := areaWids rd t
  let flags := rd 7 1
  let fits := clusterTakes s t.part cl && poolsFit s cl t.barriers t.handles && decide ((s.cluster cl).spaceUsed + levelZero t ≤ 2 ^ 20)
  match if fits then placeHome s cl (wids.map fun i => (i, rd 0x28 16 / 4 ^ i % 4, slotAllot s rd t i)) [] else none with
  | none => .error 2
  | some ps =>
    if wids.any fun i => (rd 0x20 8).testBit i && (List.range 32).any (tileClash s rd tid cl i) then .error 3
    else if flags % 4 ≠ 0 ∧ cl ≠ originCluster rd then .error 4
    else if flags.testBit 2 ∧ cl / 80 ≠ originCluster rd / 80 then .error 4
    else .ok ps

def readJoin (v : Nat) : Join :=
  { expect := BitVec.ofNat 64 v, arrived := BitVec.ofNat 64 (v / 2 ^ 64), jpc := pcOf (bitsOf v 128 56), valid := v.testBit 191 }

/-- The warp block could have been written by a save: what RFT checks of a header and its entries, an allotment of R21, flag states of
R30. (log 90, DESIGN CHOICE) -/
def blockCheck (rb : SaveReader) : Bool :=
  let allot := rb 0x4B30 1
  entriesOk rb && decide (bitsOf (rb 0 8) 8 2 < 3) && allot % 16 == 0 && decide (16 ≤ allot) && decide (allot ≤ 192) &&
  (List.range 8).all fun n => rb (0x4B00 + 2 * n) 2 % 4 != 3

/-- The kept entries of a region stack of a depth: none beyond the depth, and none for the oldest ones that are overwritten (R33).
(log 90, DESIGN CHOICE) -/
def blockRegions (rb : SaveReader) : List (BitVec 16) :=
  let ids := (List.range (min (rb 0x4B32 1) 16)).map fun n => BitVec.ofNat 16 (rb (0x4B10 + 2 * n) 2)
  (ids.reverse.dropWhile fun x => x == 0xFFFF).reverse

/-- A flag word of the area. -/
def readFlag (v : Nat) (old : Flag) : Flag :=
  { state := BitVec.ofNat 2 v, bound := v.testBit 2, outcome := BitVec.ofNat 8 (v / 256), errAddr := old.errAddr, op := old.op }

/-- The registers of a warp block over those that a save area gives; bits [63:56] of a branch target are zero (R28). -/
def blockRegs (rb : SaveReader) (r : Regs) : Regs :=
  let allot := rb 0x4B30 1
  let r := { r with v := [], s := [], p := [], b := [], j := [], shadow := [], pend := [], allot := allot, rd := rb 0x4B31 1, rsdepth := rb 0x4B32 1,
                    rstk := blockRegions rb, wtime := rb 8 8, due := rb 8 8 }
  let r := (List.range 48).foldl (fun r n => r.writeS n (BitVec.ofNat 32 (rb (0x4A00 + 4 * n) 4))) r
  let r := (List.range 7).foldl (fun r n => r.writeP n allLanes (BitVec.ofNat 64 (rb (0x4AC0 + 8 * n) 8))) r
  let r := (List.range 7).foldl (fun r n => { r with shadow := tset 0 r.shadow n (BitVec.ofNat 32 (rb (0x4B40 + 4 * n) 4)) }) r
  let r := (List.range 8).foldl (fun r n => r.setJoin n (readJoin (rb (0x4B60 + 24 * n) 24))) r
  let r := (List.range 512).foldl (fun r k => { r with b := tset 0 r.b k (BitVec.ofNat 64 (rb (0x5000 + 8 * k) 8 % 2 ^ 56)) }) r
  (List.range (64 * allot)).foldl (fun r k => { r with v := tset 0 r.v k (BitVec.ofNat 32 (rb (0x6000 + 4 * k) 4)) }) r

/-- A warp from its block (R350, R351): U = T. Its memory-slot instructions count from 0 again (R356). Its results in flight are those of the block's latch entries alone. -/
def blockWarp (rb : SaveReader) (kept : Warp) (team age : Nat) : Warp :=
  let T := rb 8 8
  let old := kept.r.settleTrap kept.r.due
  let fr : Frame := { level := kept.level, holdOp := [], holdEng := kept.holdEng, pend := [], idle := idleTransfers old,
                      away := old.groups.map fun g => g.away, seqs := old.savedSeqs }
  let w := restoreWarp rb { kept with r := { kept.r with flight := [] }, handlers := [fr], stop := false } T
  { w with r := blockRegs rb w.r, team := team, age := age, passed := 0, starved := false, freed := none,
           f := (List.range 8).foldl (fun f n => tset Flag.zero f n (readFlag (rb (0x4B00 + 2 * n) 2) (kept.flag n))) [],
           prio := rb 0x4B33 1, loop := kept.loop.map (fun q => { q with iter := rb 0x4B34 4 }),
           lbase := BitVec.ofNat 64 (rb 0x4C40 8), lsize := rb 0x4C48 8, memBase := kept.memSeq }

/-- Barrier b with its waiters: the lanes of the groups of the waiter masks have arrived; the fences that an arrival waits for are those
of the save. -/
def areaBarrier (s : State) (rd : SaveReader) (ps : List (Nat × Nat × Nat)) (b : Nat) (old : Barrier) : Barrier :=
  let o := 0x100 + 256 * b
  let lanes := ps.foldl (fun (m : Table Lanes) e =>
    let gs := ((tfind s.warps e.2.1).map fun w => w.r.groups).getD []
    let mask := gs.zipIdx.foldl (fun (x : Lanes) q => if (rd (o + 16 + 2 * e.1) 2).testBit q.2 then x ||| q.1.mask else x) 0
    tset 0 m e.1 mask) []
  { old with phase := rd o 4, count := rd (o + 4) 1, arrived := BitVec.ofNat 64 (rd (o + 8) 8), lanes := lanes }

/-- A handle with the contents of the area; it was granted long ago (R254). -/
def areaHandle (rd : SaveReader) (h : Nat) (q : Handle) : Handle :=
  if q.level1 then { q with since := 0 }
  else
    let off := rd (0x2108 + 16 * h) 8
    { q with since := 0, bytes := (List.range q.size).filterMap fun i =>
        let b := BitVec.ofNat 8 (rd (off + i) 1)
        if b = 0 then none else some (i, b) }

/-- The image of tile t of a sub-core. -/
def areaTile (rd : SaveReader) (home t byte : Nat) (x : Tile) : Tile :=
  { x with integer := byte.testBit 7, elems := (List.range 256).filterMap fun e =>
      let v := BitVec.ofNat 34 (rd (0x4000 + 2048 * (32 * home + t) + 8 * e) 8)
      if v = 0 then none else some (e, v) }

/-- Tiles and tokens of a restored warp: `old` is its sub-core at the save. A tile held elsewhere passes on there, a waiting
request goes to the tail of its queue. A tile that had an operation of the warp in flight at the save keeps what it holds now, and an
operation that is still in flight follows the tile. (log 51, DEDUCED) -/
def State.restoreTile (s : State) (rd : SaveReader) (busy : List (Nat × Nat)) (wid g old t : Nat) : State :=
  let byte := rd (blockBase wid + 0x4C20 + t) 1
  let n := subOf g
  let drop := fun (s : State) => s.modSub old fun c =>
    if (c.tile t).queue.any fun e => e.1 == g then c.setTile t { c.tile t with queue := (c.tile t).queue.filter fun e => e.1 ≠ g } else c
  let flag := (((s.sub old).tile t).queue.find? fun e => e.1 == g).map (·.2)
  let held := decide (((s.sub old).tile t).token = .held g)
  if held || byte % 4 = 1 then
    let live := (s.sub old).tile t
    let s := if held && old ≠ n then
      { s.passToken old t with mats := s.mats.map fun e => if e.2.warp = g ∧ e.2.sub = old ∧ e.2.tile = t then (e.1, { e.2 with sub := n }) else e }
      else s
    s.modSub n fun c =>
      let x := if held && busy.contains (old, t) then { c.tile t with elems := live.elems, integer := live.integer }
        else if byte % 4 = 1 then areaTile rd (rd 0x28 16 / 4 ^ wid % 4) t byte (c.tile t) else c.tile t
      c.setTile t { x with token := .held g }
  else
    match flag with
    | none => s
    | some f =>
      let s := (drop s).modSub n fun c => c.setTile t { c.tile t with queue := (c.tile t).queue ++ [(g, f)] }
      match ((s.sub n).tile t).token with
      | .free => s.passToken n t
      | _ => s

/-- The restore takes place. -/
def State.unparkTeam (s : State) (rd : SaveReader) (tid cl : Nat) (p : Preempt) (t : Team) (ps : List (Nat × Nat × Nat)) : State :=
  let name := fun g => match ps.find? fun e => parkedWarp tid e.1 == g with
    | some e => e.2.1
    | none => g
  let s := s.renameWarps name
  let saved := ps.filter fun e => (tfind p.warps e.1).isSome && (rd 0x20 8).testBit e.1
  let age := (s.cluster cl).cycle
  let s := saved.foldl (fun s e =>
    match tfind p.warps e.1 with
    | some k => s.setWarp e.2.1 (blockWarp (fun off n => rd (blockBase e.1 + off) n) k tid age)
    | none => s) s
  let bars := (List.range t.barriers).foldl (fun m b => tset Barrier.fresh m b (areaBarrier s rd saved b (t.bar b))) []
  let t := { t with cluster := cl, parked := false, live := saved.map (fun e => e.2.1), place := ps.foldl (fun m e => tput m e.1 e.2.1) [],
                    bars := bars, htab := t.htab.map (fun e => (e.1, areaHandle rd e.1 e.2)) }
  let old := fun wid => 4 * p.cluster + rd 0x28 16 / 4 ^ wid % 4
  let s := { s with teams := tput s.teams tid t, preempts := terase s.preempts tid }.takePools cl t.barriers t.handles
  let s := s.modCluster cl fun c => { c with spaceUsed := c.spaceUsed + levelZero t }
  let s := saved.foldl (fun s e => (List.range 32).foldl (fun s k => s.restoreTile rd p.busy e.1 e.2.1 (old e.1) k) s) s
  let s := (saved.foldl (fun s e => s.retestWaits e.2.1) s).checkBarriers tid
  saved.foldl (fun s e =>
    match tfind s.warps e.2.1 with
    | some w => s.traceRecord e.2.1 w w.r.group.pc.toNat w.r.rstkWord 5 0
    | none => s) s

/-- PCTL_RESTORE (R351). An area with another version, or with a warp block that no save writes, counts as one that cannot be read. R351
lists no refusal for them. (log 90, DESIGN CHOICE) -/
def State.pctlRestore (s : State) (g : Nat) (v : DWord) : State :=
  match tfind s.warps g with
  | none => s
  | some w =>
    let d := dieOf g
    let refuse := fun (s : State) n => s.setPstat w.part d 3 n
    if pstatBusy s w.part d then refuse s 5
    else
      let psave := (pdReg s 0x178 w.part d 0).toNat
      match areaReader 0x5C4000 s (clusterOf g) w.who psave with
      | (s, none) => refuse s 6
      | (s, some rd) =>
        if rd 0 4 ≠ 1 ∨ !((List.range 64).all fun i => !(rd 0x20 8).testBit i || blockCheck fun off n => rd (blockBase i + off) n) then refuse s 6
        else
          match savedTeam s rd w.part psave (w.level = .hypervisor) with
          | none => refuse s 1
          | some (tid, p, t) =>
            if 80 ≤ bitsOf v.toNat 2 7 then refuse s 2
            else
              match restorePlaces s rd tid (pctlCluster v) t with
              | .error n => refuse s n
              | .ok ps => (s.unparkTeam rd tid (pctlCluster v) p t ps).setPstat w.part d 2 0

/-- PCTL_RESTORE: the area is read and records are written in a slot of the partition (R291), for which the restore, in progress, waits.
(log 67, DEDUCED) -/
def State.restoreStep (s : State) (g : Nat) (v : DWord) : State :=
  let part := partOf s g
  let d := dieOf g
  let i := Instr.pctlRestore g v
  if s.owed.contains i then
    if writesShut s part then s else ({ s with owed := s.owed.erase i }.setPstat part d 0 0).pctlRestore g v
  else if writesShut s part ∧ !pstatBusy s part d then { s.setPstat part d 1 0 with owed := s.owed ++ [i] }
  else s.pctlRestore g v

end Sys2Proof.Machine
end

