-- ==== Sys2Proof/Machine/Fabric.lean ====
section
/-! DEFINITION. The hypervisor's block, placement changes, peers, the host port and the checkpoint (R376 to R385, R388 to
R391). -/

namespace Sys2Proof.Machine

/-! ### HVCOMMIT (R377 to R380) -/

def blockValid (b : List Byte) (p : Nat) : Bool := (recField b (0x1900 + 256 * p + 0x99) 1).testBit 0
def blockMask (b : List Byte) (p d : Nat) : Nat := recField b (0x1900 + 256 * p + 16 * d) 16
def blockParts (b : List Byte) : List Nat := (List.range 24).filter (blockValid b)

/-- Some two members of a list both satisfy a relation. -/
def anyPair {α : Type} (r : α → α → Bool) : List α → Bool
  | [] => false
  | x :: t => t.any (r x) || anyPair r t

def zeroAt (b : List Byte) (off n : Nat) : Bool := recField b off n == 0

def clustersClash (b : List Byte) : Bool :=
  (List.range 4).any fun d =>
    anyPair (fun p q => blockMask b p d &&& blockMask b q d != 0) (blockParts b) ||
    (d == 3 && (blockParts b).any fun p => (blockMask b p 3).testBit 79)

def calendarBad (b : List Byte) : Bool :=
  (List.range 256).any (fun i =>
    let c := recField b i 1
    if i = 0 ∨ i = 128 then c != 0xFE else c == 0xFE || (c != 0xFF && !(decide (c < 24) && blockValid b c))) ||
  (blockParts b).any fun p => !(List.range 256).any fun i => recField b i 1 == p

/-- A quota of a record at an offset; an invalid partition has none. -/
def blockQuota (b : List Byte) (off p d : Nat) : Nat := if blockValid b p then recField b (0x1900 + 256 * p + off + 2 * d) 2 else 0

def quotaBad (s : State) (b : List Byte) : Bool :=
  (List.range 4).any fun d =>
    let tooMany := fun off => decide (16384 < ((List.range 24).map fun p => blockQuota b off p d).sum)
    tooMany 0x90 || tooMany 0xA0 ||
    (List.range 24).any fun p => decide (blockQuota b 0x90 p d < tget 0 (s.die d).usedKeys p) ||
      decide (blockQuota b 0xA0 p d < tget 0 (s.die d).pinned p)

/-- The nonempty MEM ranges of a partition. -/
def blockRanges (b : List Byte) (p : Nat) : List (Nat × Nat) :=
  ((List.range 4).map fun i => (recField b (0x1940 + 256 * p + 16 * i) 8, recField b (0x1948 + 256 * p + 16 * i) 8)).filter fun r => r.1 < r.2

def rangesBad (b : List Byte) : Bool :=
  anyPair (fun p q => (blockRanges b p).any fun x => (blockRanges b q).any fun y => decide (x.1 < y.2) && decide (y.1 < x.2))
    (blockParts b) ||
  (blockParts b).any fun p => (blockRanges b p).any fun r => decide (r.1 < 2 ^ 44 + 4 * Config.hbmBytes) && decide (2 ^ 44 < r.2)

def windowsBad (b : List Byte) : Bool :=
  anyPair (fun p q => recField b (0x1980 + 256 * p) 8 &&& recField b (0x1980 + 256 * q) 8 != 0) (blockParts b) ||
  (List.range 64).any fun i =>
    let t := recField b (0x110 + 32 * i) 2
    t.testBit 15 && (bitsOf t 10 5 != 0 || !zeroAt b (0x112 + 32 * i) 14)

def clusterLeaves (s : State) (b : List Byte) : Bool :=
  (List.range 24).any fun p => (s.part p).valid && (List.range 320).any fun cl =>
    clusterOwned s p cl && !(blockValid b p && (blockMask b p (cl / 80)).testBit (cl % 80)) && !clusterIdle s cl

/-- Reserved bytes of windows, partition records and context entries, contexts of invalid partitions, empty buckets. (log 59, DEDUCED) -/
def reservedBad (b : List Byte) : Bool :=
  (List.range 24).any (fun p =>
    let o := 0x1900 + 256 * p
    (List.range 4).any (fun d => blockMask b p d / 2 ^ 80 != 0) || decide (3 < recField b (o + 0x98) 1) ||
    recField b (o + 0x99) 1 / 2 != 0 || !zeroAt b (o + 0x9A) 6 || !zeroAt b (o + 0xA8) 88) ||
  (List.range 64).any (fun i => !zeroAt b (0x112 + 32 * i) 14) ||
  (List.range 256).any fun i =>
    let o := 0x900 + 16 * i
    let h := recField b o 4
    let w := recField b (o + 4) 4
    bitsOf h 5 2 != 0 || h / 256 != 0 || w / 2 ^ 29 != 0 || !zeroAt b (o + 8) 8 ||
    (h.testBit 7 && (!(decide (h % 32 < 24) && blockValid b (h % 32)) || w % 2 ^ 16 == 0))

/-- The lowest reason for which a block is refused. -/
def blockReason (s : State) (b : List Byte) : Option Nat :=
  if clustersClash b then some 1
  else if calendarBad b then some 2
  else if quotaBad s b then some 3
  else if rangesBad b then some 4
  else if windowsBad b then some 5
  else if clusterLeaves s b then some 6
  else if reservedBad b then some 7
  else none

/-- HVCOMMIT_GO: a block that passes takes effect at the next turn, its power modes as PMODE writes do. (log 59, DEDUCED) -/
def State.commitBlock (s : State) : State :=
  let refuse := fun (s : State) r => s.setSreg (sregKey 0x1E1 0) 0 (BitVec.ofNat 64 (2 * 3 + 16 * r))
  match readRecord Config.hvCluster hvWho s (sregGet s (sregKey 0x1E0 0) 0).toNat 0x3100 with
  | (s, .error _) => refuse s 8
  | (s, .ok b) =>
    match blockReason s b with
    | some r => refuse s r
    | none =>
      let s := (List.range 24).foldl (fun s p =>
        if blockValid b p then s.setPart p { s.part p with nextMode := recField b (0x1998 + 256 * p) 1 } else s) s
      { s with staged := some b }.setSreg (sregKey 0x1E1 0) 0 2

/-! ### FLUSHPA (R381) -/

/-- Combine, write back and invalidate every line of [k, k + n). -/
def State.flushRange (s : State) (k n : Nat) : State :=
  let s := s.combineRange k n
  let s := (linesIn k n (s.l2.map fun e => lineOf e.1)).foldl (fun s l => s.writeBackLine l) s
  let s := (linesIn k n (s.dir.map (·.1))).foldl (fun s l => s.dropShared l) s
  let gone := fun (l : Nat) => lineOf k ≤ l && l ≤ lineOf (k + n - 1)
  s.clusters.foldl (fun s e => s.modCluster e.1 fun c => { c with ro := c.ro.filter fun x => !gone x.1 }) s

/-- FLUSHPA_WRITE: the range under each name that it may have. (log 24, DESIGN CHOICE; log 57, DEDUCED) -/
def State.flushPa (s : State) (v : DWord) : State :=
  let pa := bitsOf v.toNat 16 36 * 2 ^ 16
  let n := 2 ^ 16 * bitsOf v.toNat 52 12
  if n = 0 then s
  else [0, 1, 2].foldl (fun s kind => s.flushRange (kind * kindBase + pa) n) s

/-! ### Posted writes to peers (R383, R389, R391) -/

/-- Lanes of an operation whose posted writes other than id satisfy p. -/
def postedLanes (s : State) (op id : Nat) (p : Posted → Bool) : Lanes :=
  s.posted.foldl (fun m e => if e.2.op = op ∧ e.1 ≠ id ∧ e.2.warp.isSome ∧ p e.2 then m ||| e.2.lanes else m) 0

/-- Writes of a warp on their way. -/
def outstanding (s : State) (g : Nat) : Nat := (s.posted.filter fun e => e.2.sent && e.2.warp == some g).length

/-- The write that stands for the first of an engine's operation to the line of write id: itself, or one that has not been sent. -/
def firstToLine (s : State) (id : Nat) (p : Posted) : Option (Nat × Posted) :=
  if p.warp.isSome then none
  else if p.fresh then some (id, p)
  else s.posted.find? fun e => e.2.fresh && !e.2.sent && e.2.op == p.op && e.2.window == p.window && e.2.offset / 128 == p.offset / 128

/-- An engine's line is counted with the first of the operation's writes to it that leaves (R252, R296). -/
def State.countFirst (s : State) (id : Nat) (p : Posted) : State :=
  match firstToLine s id p with
  | none => s
  | some (k, q) => { s with posted := tput s.posted k { q with fresh := false } }.countRemote p.cluster p.pc.toNat

/-- The posted write has left: its lanes of which every write has been sent are performed at `.die` and `.dev`. -/
def State.markSent (s : State) (id : Nat) (p : Posted) : State :=
  let s := (s.bucketCharge p.ctx (p.cluster / 80) p.units).countFirst id p
  let p := { p with fresh := false }
  let at1 := peerPlace s (3 * kindBase + 2 ^ 46 * p.window + p.offset)
  let s := { s with posted := tput s.posted id { p with sent := true, sentAt := s.now }, outbox := s.outbox ++ [.write at1.1 at1.2 p.bytes] }
  if p.warp.isSome then
    match tfind s.mops p.op with
    | none => s
    | some o => s.putOp p.op { o with die := o.die ||| (p.lanes &&& ~~~postedLanes s p.op id fun q => !q.sent) }
  else
    match tfind s.copies p.op with
    | none => s
    | some c =>
      if c.stage = 3 ∧ p.copy.isSome ∧ !s.posted.any fun e => e.2.op == p.op && e.2.warp.isNone && e.2.copy.isSome && !e.2.sent then
        s.finishCopy p.op 1 0 0 else s

/-- An older write of the cluster to a byte of the write satisfies q. -/
def olderWrite (s : State) (id : Nat) (p : Posted) (q : Posted → Bool) : Bool :=
  s.posted.any fun e => decide (e.1 < id) && e.2.cluster == p.cluster && e.2.window == p.window && q e.2 &&
    p.bytes.any fun b => e.2.bytes.any fun c => e.2.offset + c.1 == p.offset + b.1

/-- POSTED_WRITE_SEND: a warp has at most 64 writes on their way; the calendar and the bucket of the port let each through, and writes to
the same bytes leave in order (R250, R257, R291). -/
def State.sendPosted (s : State) (id : Nat) : State :=
  match tfind s.posted id with
  | none => s
  | some p =>
    if p.sent || !slotOpen s p.part || !bucketPays s p.ctx (p.cluster / 80) p.units || olderWrite s id p (fun q => !q.sent) then s
    else
      match p.warp with
      | some g => if 64 ≤ outstanding s g then s else s.markSent id p
      | none => s.markSent id p

/-- The write is over: its lanes of which no write is left are performed at `.sys`. -/
def State.closePosted (s : State) (id : Nat) (p : Posted) : State :=
  let s := { s with posted := terase s.posted id }
  if p.warp.isSome then
    match tfind s.mops p.op with
    | none => s
    | some o => s.putOp p.op { o with sys := o.sys ||| (p.lanes &&& ~~~postedLanes s p.op id fun _ => true) }
  else s

/-- A covered set holds a posted write. -/
def Release.waitsFor (c : Release) (s : State) (id : Nat) (p : Posted) : Bool :=
  (c.now s).any fun c => c.1 == id || (p.warp.isSome && c.1 == p.op && c.2 &&& p.lanes != 0)

/-- A release (R259). -/
def MemKind.isRelease : MemKind → Bool
  | .strel | .qpost | .tlsig => true
  | _ => false

/-- The release or FENCE waits for a posted write (R391). -/
def waitsPosted (s : State) (o : MemOp) (id : Nat) (p : Posted) : Bool :=
  decide (o.scope = 4) && (o.kind == .fence || (o.kind.isRelease && decide (o.lanes &&& ~~~o.reported ≠ 0))) && o.release.waitsFor s id p

/-- A release of warp g meets a lost write: 0x089, or for a warp that has ended, its launch fails (R391). -/
def State.releaseFault (s : State) (g id : Nat) (pc syl : DWord) (act : Lanes) (va : DWord) : State :=
  match ownerOf s g with
  | none => s
  | some w =>
    if w.ended then (s.logError (dieOf g) 0x089 0 (identOf g w.part) pc.toNat w.lnid.toNat).failLaunch w.launch 0x089
    else (s.deferFault g id 0x089 pc syl act va).checkBarriers w.team

/-- A release that waits for a lost write completes with 0x089 and sends no store (R391). (log 60, DEDUCED) -/
def State.breakRelease (s : State) (id : Nat) (o : MemOp) : State :=
  ({ s with mops := terase s.mops id }.settle o).releaseFault o.warp id o.pc o.syl o.act (tget 0 o.addr (lowLane o.act))

/-- A claim of a cross-device group that waits for a lost write is lost, and never commits (R268, R391). (log 60, DEDUCED) -/
def State.breakClaims (s : State) (id : Nat) (p : Posted) : State :=
  let cross := fun g : Nat => decide (2 ^ 31 ≤ g) || ((tfind s.cgroups g).map fun q => q.cross) == some true
  let fault := fun (s : State) (c : Release) => s.releaseFault c.warp s.nextId c.pc c.syl c.act 0
  let open_ := s.proposals.filter fun e => e.2.state == 0 && cross e.2.group && e.2.release.waitsFor s id p
  let sent := s.cmsgs.filterMap fun e => match e.2 with
    | .claim g _ _ _ _ w n c => if cross g && c.waitsFor s id p then some (e.1, w, n, c) else none
    | _ => none
  let s := open_.foldl (fun s e => { fault (s.closeProposal e.1 e.2 1 1) e.2.release with nextId := s.nextId + 2 }) s
  sent.foldl (fun s e =>
    { fault ({ s with cmsgs := terase s.cmsgs e.1 }.sendOutcome (.warp e.2.1 e.2.2.1) 1) e.2.2.2 with nextId := s.nextId + 2 }) s

/-- The warp that a posted write is for: its own, or that of the engine's operation. -/
def Posted.issuer (p : Posted) : Option Nat := p.warp.or (p.copy.map (·.1))

/-- The warp slot that the log names for a posted write: its warp's, or the first of its cluster where that warp is in no slot. -/
def Posted.logSlot (s : State) (p : Posted) : Nat :=
  match p.issuer with
  | some g => if (tfind s.warps g).isSome then g else 64 * p.cluster
  | none => 64 * p.cluster

/-- A posted write is lost or refused (R383, R390). (log 60, DEDUCED) -/
def State.failPosted (s : State) (id : Nat) (p : Posted) : State :=
  let lnid := ((p.issuer.bind fun g => ownerOf s g).map fun w => w.lnid.toNat).getD 0
  let s := s.logError (p.cluster / 80) 0x089 0 (identOf (p.logSlot s) p.part) p.offset lnid
  let s := { s with windows := tset Window.absent s.windows p.window { s.window p.window with lost := true } }
  let hit := s.mops.filter fun e => waitsPosted s e.2 id p
  let s := hit.foldl (fun s e => s.breakRelease e.1 e.2) (s.breakClaims id p)
  s.closePosted id p

/-- The report of a write has not come within 1 ms of its sending (R383). -/
def overdue (s : State) (p : Posted) : Bool := p.sent && decide (p.sentAt + 1000000 < s.now)

/-- POSTED_WRITE_LOST (R383). -/
def State.losePosted (s : State) (id : Nat) : State :=
  match tfind s.posted id with
  | none => s
  | some p => if overdue s p then s.failPosted id p else s

/-- The line of a warp's store is counted when the peer first reports a write of it (R252, R296). -/
def State.countReported (s : State) (p : Posted) : State :=
  let u := (3 * kindBase + 2 ^ 46 * p.window + p.offset) / 128
  match p.warp, tfind s.mops p.op with
  | some _, some o =>
    if o.kind.counted && !(laneList o.sys).any fun l => (o.units 7 l).contains u then s.countRemote o.cluster o.pc.toNat else s
  | _, _ => s

/-- POSTED_WRITE_REPORT, in order for writes to the same bytes (R257, R269): a refusal is a loss at once (R390), a report that comes too
late is none (R383). -/
def State.reportPosted (s : State) (id : Nat) (refused : Bool) : State :=
  match tfind s.posted id with
  | none => s
  | some p =>
    if !p.sent || olderWrite s id p (fun _ => true) then s else if refused || overdue s p then s.failPosted id p else (s.countReported p).closePosted id p

/-! ### Requests from peers and the host (R384, R385, R390) -/

/-- Names of n bytes at pa; none where one of them is not memory. -/
def inboundKeys (pa n : Nat) : Option (List Nat) := (List.range n).mapM fun i => paKey (pa + i)

/-- A request waits while a copy operation owns its line or a checkpoint copies. -/
def inboundWaits (s : State) (ks : List Nat) : Bool :=
  s.ckpt.isSome || ks.any fun k => (dirOf s (lineOf k)).owner.isSome

/-- Write some of the bytes from k on at their home, as one store. -/
def State.storeMasked (s : State) (es : List (Nat × Byte)) : State :=
  let lines := (es.map fun e => lineOf e.1).dedup
  let s := lines.foldl (fun s l => (s.combineLine l).dropShared l) s
  let s := es.foldl (fun s e => s.setHomeByte e.1 e.2) s
  match es with
  | [] => s
  | e :: _ => s.testCounters e.1 ((es.map (·.1)).foldl max e.1 + 1 - e.1)

def State.answer (s : State) (x : Outbound) : State := { s with outbox := s.outbox ++ [x] }

/-- A host address at or above 2^60 is an offset into the BAR2 aperture: the staging area until boot completes, afterwards
the range that the hypervisor has set, 64 GiB (R385). -/
def bar2Offset (pa : Nat) : Option Nat := if 2 ^ 60 ≤ pa then some (pa - 2 ^ 60) else none
def booted (s : State) : Bool := s.bstate == 5
def hostKeys (s : State) (pa n : Nat) : Option (List Nat) :=
  match bar2Offset pa with
  | some o => if o + n ≤ 2 ^ 36 then inboundKeys (s.bar2 + o) n else none
  | none => inboundKeys pa n

/-- A host address at or above 2^61 is an offset into BAR0 (R385). -/
def bar0Offset (pa : Nat) : Option Nat := if 2 ^ 61 ≤ pa then some (pa - 2 ^ 61) else none

/-- A byte of BAR0: BSTATE and BERR at 0, DOORBELL at 0x1000, else 0. -/
def bar0Byte (s : State) (o : Nat) : Byte :=
  let word := if o / 4 = 0 then s.bstate + 16 * s.berr else if o / 4 = 0x400 then s.doorbell.toNat else 0
  BitVec.ofNat 8 (word / 256 ^ (o % 4))

/-- What a host write to a register of BAR0 starts. -/
def bar0Write (o v : Nat) : List Instr :=
  if o = 4 ∧ v.testBit 0 then [.recoveryGo] else if o = 0x1000 then [.doorbellWrite (BitVec.ofNat 32 v)] else []

/-- A write of named bytes, or none while it has to wait; with `tag` a peer's, which is answered (R384, R390). -/
def State.takeWrite (s : State) (tag : Option Nat) (ks : Option (List Nat)) (bs : List (Option Byte)) : Option State :=
  let reply := fun (s : State) (x : Nat → Outbound) => match tag with
    | some n => s.answer (x n)
    | none => s
  match ks with
  | none => some (reply s .refusal)
  | some ks =>
    if inboundWaits s ks then none
    else some (reply (s.storeMasked ((ks.zip bs).filterMap fun e => e.2.map fun b => (e.1, b))) .report)

/-- A read of named bytes, or none while it has to wait (R384, R390). -/
def State.takeRead (s : State) (tag : Nat) (ks : Option (List Nat)) : Option State :=
  match ks with
  | none => some (s.answer (.refusal tag))
  | some ks =>
    if inboundWaits s ks then none
    else
      let s := (ks.map lineOf).dedup.foldl (fun s l => s.combineLine l) s
      some (s.answer (.data tag (ks.map fun k => s.homeByte k)))

/-- A peer's atomic operation: one of R149 on an aligned word of 4 or 8 bytes; the old value is the answer (R382). -/
def State.takeAtomic (s : State) (tag pa op n data cmp : Nat) : Option State :=
  match inboundKeys pa n with
  | none => some (s.answer (.refusal tag))
  | some ks =>
    if (n ≠ 4 ∧ n ≠ 8) ∨ pa % n ≠ 0 ∨ 10 < op then some (s.answer (.refusal tag))
    else if inboundWaits s ks then none
    else
      let r := s.homeRead (ks.headD 0) n
      let new := atomicNew op (8 * n) (bytesToNat r.2) (data % 2 ^ (8 * n)) (cmp % 2 ^ (8 * n))
      some ((r.1.homeWrite (ks.headD 0) (natToBytes n new)).answer (.data tag r.2))

/-- Serve a request, or none while it has to wait (R384, R385, R390). -/
def State.takeRequest (s : State) : Request → Option State
  | .peerWrite tag pa bs => s.takeWrite (some tag) (inboundKeys pa bs.length) bs
  | .peerRead tag pa n => s.takeRead tag (inboundKeys pa n)
  | .peerAtomic tag pa op n data cmp => s.takeAtomic tag pa op n data cmp
  | .hostWrite pa bs =>
    match bar0Offset pa, bar2Offset pa, booted s with
    | some o, _, _ => some (s.first (bar0Write o (bytesToNat bs)))
    | none, some o, false =>
      some (if o + bs.length ≤ 2 ^ 26 then
        { s with staging := bs.zipIdx.foldl (fun m e => tset Memory.blank m (o + e.2) e.1) s.staging } else s)
    | none, _, _ => s.takeWrite none (hostKeys s pa bs.length) (bs.map some)
  | .hostRead tag pa n =>
    match bar0Offset pa, bar2Offset pa, booted s with
    | some o, _, _ => some (s.answer (.data tag ((List.range n).map fun i => bar0Byte s (o + i))))
    | none, some o, false =>
      some (s.answer (if o + n ≤ 2 ^ 26 then .data tag ((List.range n).map fun i => tget Memory.blank s.staging (o + i)) else .refusal tag))
    | none, _, _ => s.takeRead tag (hostKeys s pa n)

def Request.ofHost : Request → Bool
  | .hostWrite _ _ => true
  | .hostRead _ _ _ => true
  | _ => false

/-- Serve the requests that wait, in the order of their arrival at the host port and from the peers. (log 61, DESIGN CHOICE) -/
def State.serveRequests (s : State) : State :=
  let r := s.requests.foldl (fun (x : State × List Request) q =>
    if x.2.any fun p => p.ofHost == q.ofHost then (x.1, x.2 ++ [q])
    else match x.1.takeRequest q with
      | some t => (t, x.2)
      | none => (x.1, x.2 ++ [q])) ({ s with requests := [] }, [])
  { r.1 with requests := r.2 }

/-- A request arrives (R384, R390). -/
def State.arrive (s : State) (q : Request) : State := { s with requests := s.requests ++ [q] }.serveRequests

/-- DOORBELL_WRITE (R385). Through this mailbox the hypervisor may set the range of BAR2; where it then lies is a free value.
(log 61, DESIGN CHOICE) -/
def State.ringDoorbell (s : State) (v : Word) : State :=
  let s := if booted s then { s with bar2 := (Config.freeValue s.free).toNat, free := s.free + 1 } else s
  { s with doorbell := v }.interrupt 2 0 v.toNat

/-- PLANE_REACHABLE (R315, R382). -/
def State.planeBack (s : State) (dev : Nat) : State := { s with unreachable := s.unreachable.filter fun d => d ≠ dev }

/-! ### Checkpoint (R388) -/

def State.setCkstat (s : State) (st errs gib : Nat) : State :=
  s.setSreg (sregKey 0x1E4 0) 0 (BitVec.ofNat 64 (st + 4 * (errs % 2 ^ 30) + 2 ^ 32 * gib))

/-- Every update-only copy is combined and every dirty line written back. -/
def State.drainCaches (s : State) : State :=
  let s := (s.ucopy.map fun e => lineOf (copyPlace e.1)).dedup.foldl (fun s l => s.combineLine l) s
  (s.l2.map fun e => lineOf e.1).dedup.foldl (fun s l => s.writeBackLine l) s

/-- CHECKPOINT_SAVE and CHECKPOINT_RESTORE: refused while another cluster is in use; kind 0 save, 1 restore. -/
def State.startCheckpoint (s : State) (kind : Nat) : State :=
  if s.ckpt.isSome then s
  else if (List.range 320).any fun cl => cl != Config.hvCluster && !clusterIdle s cl then s.setCkstat 3 0 0
  else { s.drainCaches with ckpt := some kind }.setCkstat 1 0 0

/-- Second-tier place of a byte of HBM, by its place. -/
def tierPlace (a : Nat) : Nat := 2 ^ 44 + a / 2 ^ 38 * Config.hbmBytes + a % 2 ^ 38
def tierBack (a : Nat) : Nat := (a - 2 ^ 44) / Config.hbmBytes * 2 ^ 38 + (a - 2 ^ 44) % Config.hbmBytes
def inHbm (a : Nat) : Bool := decide (a < 2 ^ 40) && decide (a % 2 ^ 38 < Config.hbmBytes)
def inTier (a : Nat) : Bool := decide (2 ^ 44 ≤ a) && decide (a < 2 ^ 44 + 4 * Config.hbmBytes)

/-- The checkpoint's image of HBM in the second tier, or HBM from it. -/
def copyOut (m : Memory) : Memory :=
  (m.filter fun e => inHbm e.1).foldl (fun m e => tset Memory.blank m (tierPlace e.1) e.2) (m.filter fun e => !inTier e.1)
def copyBack (m : Memory) : Memory :=
  (m.filter fun e => inTier e.1).foldl (fun m e => tset Memory.blank m (tierBack e.1) e.2) (m.filter fun e => !inHbm e.1)

/-- CHECKPOINT_COMPLETE: a restore invalidates every cache and TLB entry; rows with an uncorrected error are logged, and the requests
that have waited proceed. (log 62, DESIGN CHOICE) -/
def State.finishCheckpoint (s : State) (errors : Nat) : State :=
  match s.ckpt with
  | none => s
  | some kind =>
    let s := { s with ckpt := none }
    let s := if kind = 0 then { s with mem := copyOut s.mem }
      else
        let cs := s.clusters.map fun e => (e.1, { e.2 with ro := [], tlb := [] })
        let ds := s.dies.map fun e => (e.1, { e.2 with tlb := [] })
        { s with mem := copyBack s.mem, l2 := [], dir := s.dir.filterMap (fun e => if e.2.owner.isNone then none else some (e.1, { e.2 with sDies := [] })),
                 clusters := cs.filter (fun e => decide (e.2 ≠ Cluster.reset)), dies := ds.filter (fun e => decide (e.2 ≠ Die.reset)) }
    let s := (List.range errors).foldl (fun s i => s.logError 3 3 1 (identOf (64 * Config.hvCluster) Config.hvPartition)
      (Config.freeValue (s.free + i)).toNat 0) s
    ({ s with free := s.free + errors }.setCkstat 2 errors 768).serveRequests

end Sys2Proof.Machine
end

