-- ==== Sys2Proof/Machine/Sha.lean ====
section
/-! DEFINITION. The digest and the signature check of the boot sequencer (R386, R387): SHA-512, MGF1 and RSASSA-PSS
verification of RFC 8017. -/

namespace Sys2Proof.Machine

/-- Round constants of SHA-512. -/
def shaK : List Nat :=
  [0x428A2F98D728AE22, 0x7137449123EF65CD, 0xB5C0FBCFEC4D3B2F, 0xE9B5DBA58189DBBC] ++
  [0x3956C25BF348B538, 0x59F111F1B605D019, 0x923F82A4AF194F9B, 0xAB1C5ED5DA6D8118] ++
  [0xD807AA98A3030242, 0x12835B0145706FBE, 0x243185BE4EE4B28C, 0x550C7DC3D5FFB4E2] ++
  [0x72BE5D74F27B896F, 0x80DEB1FE3B1696B1, 0x9BDC06A725C71235, 0xC19BF174CF692694] ++
  [0xE49B69C19EF14AD2, 0xEFBE4786384F25E3, 0x0FC19DC68B8CD5B5, 0x240CA1CC77AC9C65] ++
  [0x2DE92C6F592B0275, 0x4A7484AA6EA6E483, 0x5CB0A9DCBD41FBD4, 0x76F988DA831153B5] ++
  [0x983E5152EE66DFAB, 0xA831C66D2DB43210, 0xB00327C898FB213F, 0xBF597FC7BEEF0EE4] ++
  [0xC6E00BF33DA88FC2, 0xD5A79147930AA725, 0x06CA6351E003826F, 0x142929670A0E6E70] ++
  [0x27B70A8546D22FFC, 0x2E1B21385C26C926, 0x4D2C6DFC5AC42AED, 0x53380D139D95B3DF] ++
  [0x650A73548BAF63DE, 0x766A0ABB3C77B2A8, 0x81C2C92E47EDAEE6, 0x92722C851482353B] ++
  [0xA2BFE8A14CF10364, 0xA81A664BBC423001, 0xC24B8B70D0F89791, 0xC76C51A30654BE30] ++
  [0xD192E819D6EF5218, 0xD69906245565A910, 0xF40E35855771202A, 0x106AA07032BBD1B8] ++
  [0x19A4C116B8D2D0C8, 0x1E376C085141AB53, 0x2748774CDF8EEB99, 0x34B0BCB5E19B48A8] ++
  [0x391C0CB3C5C95A63, 0x4ED8AA4AE3418ACB, 0x5B9CCA4F7763E373, 0x682E6FF3D6B2B8A3] ++
  [0x748F82EE5DEFB2FC, 0x78A5636F43172F60, 0x84C87814A1F0AB72, 0x8CC702081A6439EC] ++
  [0x90BEFFFA23631E28, 0xA4506CEBDE82BDE9, 0xBEF9A3F7B2C67915, 0xC67178F2E372532B] ++
  [0xCA273ECEEA26619C, 0xD186B8C721C0C207, 0xEADA7DD6CDE0EB1E, 0xF57D4F7FEE6ED178] ++
  [0x06F067AA72176FBA, 0x0A637DC5A2C898A6, 0x113F9804BEF90DAE, 0x1B710B35131C471B] ++
  [0x28DB77F523047D84, 0x32CAAB7B40C72493, 0x3C9EBE0A15C9BEBC, 0x431D67C49C100D4C] ++
  [0x4CC5D4BECB3E42B6, 0x597F299CFC657E2A, 0x5FCB6FAB3AD6FAEC, 0x6C44198C4A475817]

/-- The first hash value. -/
def shaInit : List Nat :=
  [0x6A09E667F3BCC908, 0xBB67AE8584CAA73B, 0x3C6EF372FE94F82B, 0xA54FF53A5F1D36F1,
  0x510E527FADE682D1, 0x9B05688C2B3E6C1F, 0x1F83D9ABFB41BD6B, 0x5BE0CD19137E2179]

/-- Big-endian number of a list of bytes. -/
def bigEndian (bs : List Byte) : Nat := bs.foldl (fun n b => 256 * n + b.toNat) 0

/-- n bytes of a number, most significant first. -/
def bigBytes (n v : Nat) : List Byte := (natToBytes n v).reverse

/-! Words of 64 bits are natural numbers below 2^64. -/

def wordMod : Nat := 0x10000000000000000

/-- Rotation to the right. -/
def shaRotr (n x : Nat) : Nat := Nat.lor (Nat.shiftRight x n) (Nat.mod (Nat.shiftLeft x (64 - n)) wordMod)

/-- The exclusive or of three words. -/
def shaXor (a b c : Nat) : Nat := Nat.xor a (Nat.xor b c)

/-- The next word of the message schedule, from the sixteen before it, the latest first. -/
def shaNext (w : List Nat) : Nat :=
  let a := w.getD 14 0
  let b := w.getD 1 0
  let s0 := shaXor (shaRotr 1 a) (shaRotr 8 a) (Nat.shiftRight a 7)
  let s1 := shaXor (shaRotr 19 b) (shaRotr 61 b) (Nat.shiftRight b 6)
  Nat.mod (w.getD 15 0 + s0 + w.getD 6 0 + s1) wordMod

/-- A function of a value that is computed first. -/
def withValue {α : Type} (n : Nat) (f : Nat → α) : α :=
  match n with
  | 0 => f 0
  | k + 1 => f (k + 1)

/-- The rounds with the constants left, on the working variables a to h; `w` holds the latest sixteen words, the latest first. -/
def shaRounds : List Nat → List Nat → List Nat → List Nat
  | k :: ks, w, [a, b, c, d, e, f, g, h] =>
    let s1 := shaXor (shaRotr 14 e) (shaRotr 18 e) (shaRotr 41 e)
    let ch := Nat.xor (Nat.land e f) (Nat.land (wordMod - 1 - e) g)
    let s0 := shaXor (shaRotr 28 a) (shaRotr 34 a) (shaRotr 39 a)
    let maj := shaXor (Nat.land a b) (Nat.land a c) (Nat.land b c)
    withValue (h + s1 + ch + k + w.getD 15 0) fun t1 =>
    withValue (Nat.mod (t1 + (s0 + maj)) wordMod) fun a' =>
    withValue (Nat.mod (d + t1) wordMod) fun e' =>
    withValue (shaNext w) fun x => shaRounds ks ((x :: w).take 16) [a', a, b, c, e', e, f, g]
  | _, _, h => h

/-- One block of 128 bytes. -/
def shaBlock (h : List Nat) (block : List Byte) : List Nat :=
  let w := ((List.range 16).map fun i => bigEndian ((block.drop (8 * i)).take 8)).reverse
  (h.zip (shaRounds shaK w h)).map fun e => Nat.mod (e.1 + e.2) wordMod

/-- Blocks of a padded message. -/
def shaBlocks : Nat → List Byte → List Nat → List Nat
  | 0, _, h => h
  | n + 1, bs, h => shaBlocks n (bs.drop 128) (shaBlock h (bs.take 128))

/-- SHA-512. -/
def sha512 (bs : List Byte) : List Byte :=
  let n := bs.length
  let pad := (239 - n % 128) % 128
  let m := bs ++ [0x80] ++ List.replicate pad 0 ++ bigBytes 16 (8 * n)
  (shaBlocks (m.length / 128) m shaInit).flatMap fun x => bigBytes 8 x

/-- MGF1 with SHA-512: n bytes. -/
def mgf1 (seed : List Byte) (n : Nat) : List Byte :=
  ((List.range ((n + 63) / 64)).flatMap fun i => sha512 (seed ++ bigBytes 4 i)).take n

def xorBytes (a b : List Byte) : List Byte := (a.zip b).map fun e => e.1 ^^^ e.2

/-- x^(2^k) modulo n. -/
def squareUp (n : Nat) : Nat → Nat → Nat
  | 0, x => x
  | k + 1, x => squareUp n k (x * x % n)

/-- The encoded message is one of EMSA-PSS over a digest: a 64-byte salt, 4,095 bits. -/
def pssOk (digest em : List Byte) : Bool :=
  let db := em.take 447
  let h := (em.drop 447).take 64
  let data := xorBytes db (mgf1 h 447)
  let d := (data.headD 0 &&& 0x7F) :: data.tail
  em.getD 511 0 == 0xBC && !(db.headD 0).getLsbD 7 && (d.take 382).all (· == 0) && d.getD 382 0 == 1 &&
  h == sha512 (List.replicate 8 0 ++ digest ++ d.drop 383)

/-- RSASSA-PSS verification of a digest with a 4,096-bit modulus and exponent 65,537. -/
def rsaVerify (modulus digest sig : List Byte) : Bool :=
  let n := bigEndian modulus
  let s := bigEndian sig
  decide (s < n) && pssOk digest (bigBytes 512 (squareUp n 16 s * s % n))

end Sys2Proof.Machine
end

