-- ==== Sys2Proof/Machine/Boot.lean ====
section
/-! DEFINITION. The boot sequencer: images, the first address space, the first warp; measurements (R385 to R387). -/

namespace Sys2Proof.Machine

/-- The bytes at n places from a on. -/
def bytesFrom : Nat → Nat → Memory → List Byte
  | 0, _, _ => []
  | n + 1, a, m =>
    match m.dropWhile fun e => Nat.ble (e.1 + 1) a with
    | (k, b) :: t => if k = a then b :: bytesFrom n (a + 1) t else Memory.blank :: bytesFrom n (a + 1) ((k, b) :: t)
    | [] => Memory.blank :: bytesFrom n (a + 1) []

def imageBytes (m : Memory) (off n : Nat) : List Byte := bytesFrom n off m
def imageField (m : Memory) (off n : Nat) : Nat := bytesToNat (imageBytes m off n)
def imageSize (m : Memory) : Nat := imageField m 8 8

/-- The digest of an image: bytes 0x000 to 0x21F, then the body. -/
def imageDigest (m : Memory) : List Byte := sha512 (imageBytes m 0 0x220 ++ imageBytes m 0x1000 (imageSize m))

/-- BERR of an image: 0 when it is accepted (R385, R386). -/
def imageError (s : State) (m : Memory) : Nat :=
  if imageField m 0 4 ≠ 0x3156485A ∨ imageSize m % 32 ≠ 0 ∨ 2 ^ 26 < imageSize m then 1
  else if sha512 (imageBytes m 0x20 512) ≠ s.fuseKey then 2
  else if !rsaVerify (imageBytes m 0x20 512) (imageDigest m) (imageBytes m 0x220 512) then 3
  else if imageField m 4 4 < s.fuseSvn then 4
  else 0

/-- The body's PA. -/
def bodyPa : Nat := 0xC000100000

/-- Entries of the first address space: PA and value. (log 41, DEDUCED) -/
def bootTables : List (Nat × Nat) :=
  (0xC000000000, 0xC000001001) :: (List.range 4).flatMap fun q =>
    (0xC000001000 + 8 * q, 0xC000002001 + 0x1000 * q) ::
      (List.range 192).map fun i => (0xC000002000 + 0x1000 * q + 8 * i, q * 2 ^ 38 + i * 2 ^ 30 + 0x1F + 64 * q)

/-- Write bytes of memory by their place. -/
def putBytes (m : Memory) (at_ : Nat) (bs : List Byte) : Memory := bs.zipIdx.foldl (fun m e => tset Memory.blank m (at_ + e.2) e.1) m

/-- Table entries at their PAs, each where `place` puts it. -/
def putEntries (place : Nat → Nat) (es : List (Nat × Nat)) (m : Memory) : Memory :=
  es.foldl (fun m e => putBytes m (place e.1) (natToBytes 8 e.2)) m

/-- Empty the six pages of the tables where `place` puts them. -/
def clearPages (place : Nat → Nat) (m : Memory) : Memory :=
  (List.range 6).foldl (fun (m : Memory) i => m.filter fun e => e.1 < place (0xC000000000 + 4096 * i) ||
    place (0xC000000000 + 4096 * i) + 4096 ≤ e.1) m

/-- The tables lie die-locally in die 3 (R386), and under the interleaved names of their PAs, where the walker reads them
(R233; log 41, DEDUCED). -/
def putTables (m : Memory) : Memory :=
  let near := fun pa => storageOf (kindBase + pa)
  putEntries storageOf bootTables (putEntries near bootTables (clearPages storageOf (clearPages near m)))

/-- The hypervisor's warp in slot 0 of its cluster (R386). -/
def hypervisorWarp (pc size team age : Nat) : Warp :=
  let args := [BitVec.ofNat 32 bodyPa, BitVec.ofNat 32 (bodyPa / 2 ^ 32), BitVec.ofNat 32 size, BitVec.ofNat 32 (size / 2 ^ 32)]
  { freshWarp (freshRegs allLanes (pcOf pc) 192 args) allLanes Config.hvPartition Config.hvContext team 0 age [3, 5, 8, 12] with
    level := .hypervisor }

/-- Start it: its address space, its team. -/
def State.startHypervisor (s : State) (entry size : Nat) : State :=
  let tid := s.nextId
  let g := 64 * Config.hvCluster
  let t := { freshTeam 0 0xFFFFFFFF Config.hvCluster Config.hvPartition 1 0 0 true with live := [g], place := [(0, g)] }
  { s with teams := tput s.teams tid t, warps := tput s.warps g (hypervisorWarp (bodyPa + entry) size tid (s.cluster Config.hvCluster).cycle),
           nextId := tid + 1, bstate := 5, berr := 0 }.setSreg (sregKey 0x140 Config.hvContext) 0 0xC000000000

/-! ### Measurements (R387) -/

def measOf (s : State) (m : Nat) : List Byte := tget (List.replicate 64 0) s.meas m
def State.extendMeas (s : State) (m : Nat) (bs : List Byte) : State :=
  { s with meas := tset (List.replicate 64 0) s.meas m (sha512 (measOf s m ++ bs)) }

def attestBuf (v : DWord) : Nat := bitsOf v.toNat 12 44 * 4096

/-- ATTEST_EXTEND. A buffer that is not memory gives no effect. (log 58, DEDUCED) -/
def State.attestExtend (s : State) (v : DWord) : State :=
  match paKey (attestBuf v) with
  | none => s
  | some k =>
    let s := s.combineRange k 64
    s.extendMeas (bitsOf v.toNat 1 3) (s.homeBytes k 64)

/-- ATTEST_QUOTE: the registers, the nonce and a signature over them. (log 48, DESIGN CHOICE; log 58, DEDUCED) -/
def State.attestQuote (s : State) (v : DWord) : State :=
  match paKey (attestBuf v) with
  | none => s
  | some k =>
    let s := s.combineRange k 4096
    let nonce := s.homeBytes k 64
    let body := ((List.range 8).flatMap (measOf s)) ++ nonce
    let out := body ++ (List.range 512).map (Config.quoteSignature body)
    s.storeMasked (out.zipIdx.map fun (e : Byte × Nat) => (k + 64 + e.2, e.1))

/-! ### The sequence (R385, R386) -/

/-- An accepted image: its body is copied, MEAS[0] extended, the warp started. -/
def State.bootFrom (s : State) (m : Memory) : State :=
  let size := imageSize m
  let old := s.mem.filter fun e => e.1 < bodyPa || bodyPa + size ≤ e.1
  let body : Memory := (m.filter fun e => 0x1000 ≤ e.1 && e.1 < 0x1000 + size).map fun (e : Nat × Byte) => (bodyPa + (e.1 - 0x1000), e.2)
  let s := { s with mem := putTables (body.foldl (fun (m : Memory) (e : Nat × Byte) => tset Memory.blank m e.1 e.2) old) }
  (s.extendMeas 0 (imageDigest m)).startHypervisor (imageField m 0x10 8) size

/-- BOOT: one step of the sequencer: training ends, copy A, copy B, recovery. -/
def State.bootStep (s : State) : State :=
  let try_ := fun (m : Memory) (next : Nat) =>
    let e := imageError s m
    if e = 0 then s.bootFrom m else { s with berr := e, bstate := next }
  match s.bstate with
  | 0 => { s with bstate := 1 }
  | 1 => try_ s.flashA 2
  | 2 => try_ s.flashB 3
  | 4 => try_ s.staging 6
  | _ => s

/-- RECOVERY_GO (R385). -/
def State.recoveryGo (s : State) : State := if s.bstate = 3 then { s with bstate := 4 } else s

end Sys2Proof.Machine
end

