-- ==== Sys2Proof/Machine/Errors.lean ====
section
/-! DEFINITION. Uncorrected errors and self-tests (R328, R352, R353). `kind` is the structure of R333: 0 register bank,
1 scratchpad bank, 2 L2 set, 3 HBM row, 4 accumulator tile, 5 instruction cache, 6 second-tier row, 7 retention group, and 8 for the
claim store (R171). What holds the error, and what reads it, are `State.bad` and `State.meetError`. -/

namespace Sys2Proof.Machine

/-- UNCORRECTED_ERROR (R353): the data of the places from `place` on that the mask picks has an error, which what reads it meets. (log 56, DEDUCED) -/
def State.uncorrected (s : State) (kind place : Nat) (m : Lanes) : State :=
  if 8 < kind ∨ kind = 7 then s else { s with bad := (s.bad ++ (laneList m).map fun l => (kind, place + l)).dedup }

/-- The warps of a list take a cause at their next bundle boundary. -/
def State.notify (s : State) (p : Nat → Bool) (cause : Nat) : State :=
  s.warps.foldl (fun s e => if p e.1 && !e.2.ended then s.modWarp e.1 fun w => { w with notices := w.notices ++ [(cause, 0)] } else s) s

/-- A tile retires: every waiting MACQ is set to error (R328). -/
def State.retireTile (s : State) (n t : Nat) : State :=
  let x := (s.sub n).tile t
  let s := s.modSub n fun c => c.setTile t { x with token := .retired, queue := [] }
  x.queue.foldl (fun s e => s.finishFlag e.1 e.2 2 0x0F) s

/-- Lines of an L2 set that differ from memory, and the named one. -/
def setLines (s : State) (line : Nat) : List Nat :=
  (line :: ((s.l2.map fun e => lineOf e.1).filter fun l => sameSet l line)).dedup

/-- SELF_TEST (R352): the structure has been tested, an L2 set after its lines have been written back and a row after its copy to a
spare, and what waited for it goes on. A pass logs the error as transient, a failure as lasting; it is gone from the place in either
case. (log 56, DEDUCED) -/
def State.selfTested (s : State) (kind place : Nat) (pass : Bool) : State :=
  if kind = 5 ∨ 6 < kind then s
  else
    let known := s.tests.contains (kind, place)
    let s := if kind = 2 then (setLines s place).foldl (fun s l => s.writeBackLine l) s else s
    let s := s.logPlace kind ((if known then 1 else 0) + if pass then 0 else 2) kind place 0 0
    let s := { s with bad := s.bad.filter fun e => e ≠ (kind, place), tests := s.tests.filter fun e => e ≠ (kind, place) }
    if pass then s
    else
      match kind with
      | 0 => (s.modSub (place / 4) fun x => { x with noWarps := true }).notify (fun g => subOf g == place / 4) 0x148
      | 1 => (s.modCluster (place / 64) fun c => { c with noTeams := true }).notify (fun g => clusterOf g == place / 64) 0x149
      | 4 => s.retireTile (place / 32) (place % 32)
      | _ => s

end Sys2Proof.Machine
end

