-- ==== Sys2Proof/Machine/Events.lean ====
section
/-! DEFINITION. The steps that the part takes by itself and what reaches it from outside, one meaning each, and which of
them comes next where no bundle can issue (log 6, DESIGN CHOICE). A step whose subject is absent or not ready leaves the state as it is. -/

namespace Sys2Proof.Machine

/-! ### Memory -/

/-- R25, R139, R169: entries that have waited are pushed, a cut or a deal ends, a claim group is made first. -/
def execResultDelivery (op : Nat) (s : State) : Out State := .next (((((s.runPush op).finishCut op).finishDeal op).grantGroup op).deliver op)

def execFenceComplete (op : Nat) (s : State) : Out State := .next (s.completeFence op)

def execPageWalk (op : Nat) (lanes : Lanes) (s : State) : Out State :=
  .next ((laneList lanes).foldl (fun s l => s.xlateLane op l) s)

/-- A checkpoint holds the stores of the hypervisor's cluster (R388). -/
def heldByCheckpoint (s : State) (op : Nat) : Bool :=
  s.ckpt.isSome && match tfind s.mops op with
    | some o => o.kind.isWrite
    | none => false

/-- A home access in lanes of an operation, whole where it has to be (R165); lane i of the list takes answer i of a window. -/
def State.accessLanes (s : State) (op : Nat) (ls : List Nat) (answers : List Nat) : State :=
  let answer := fun l => answers.getD (ls.idxOf l) 0
  if ((tfind s.mops op).map (wholeAccess s)).getD false then s.accessWhole op answer
  else ls.foldl (fun s l => s.accessLane op l (answer l)) s

/-- R241, R255: lines that the L2 evicts are written back first. -/
def execHomeAccess (op : Nat) (lanes : Lanes) (answers : List Nat) (writeBack : List Nat) (s : State) : Out State :=
  let s := writeBack.foldl (fun s l => s.writeBackLine l) s
  .next (if heldByCheckpoint s op then s else s.accessLanes op (laneList lanes) answers)

def execCombine (line : Nat) (s : State) : Out State :=
  .next (if slotOpen s (linePart s line) then s.combineLine line else s)

def execGatheredRedApply (op : Nat) (lanes : Lanes) (s : State) : Out State :=
  .next (if heldByCheckpoint s op then s else (laneList lanes).foldl (fun s l => s.gatherLane op l) s)

def execUCopyEviction (die line : Nat) (s : State) : Out State :=
  .next (if slotOpen s (linePart s line) then s.evictCopy die line else s)

def execDeferredFaultTrap (warp : Nat) (s : State) : Out State := .next (s.deferredTrap warp)

/-- R366: once every lane has been performed or has faulted, the lanes that touched the watched range fault once, with no replay. -/
def State.reportWatch (s : State) (op : Nat) : State :=
  match tfind s.mops op with
  | none => s
  | some o =>
    if o.watch = 0 ∨ o.lanes &&& ~~~o.reported ≠ 0 then s
    else
      let s := s.deferFault o.warp s.nextId 0x123 o.pc o.syl o.watch (tget 0 o.addr (lowLane o.watch))
      { s with nextId := s.nextId + 1 }.putOp op { o with watch := 0 }

def execDataWatchMatch (op : Nat) (s : State) : Out State := .next (s.reportWatch op)

/-! ### Warps and waits -/

def execStarvationBound (warp : Nat) (s : State) : Out State := .next (s.starvation warp)
def execGroupRotation (warp : Nat) (s : State) : Out State := .next (s.rotateGroup warp)
def execTimelineCounterUpdate (pa : Nat) (s : State) : Out State := .next (s.counterUpdate pa)
def execTlwaitDeadline (warp group : Nat) (s : State) : Out State := .next (s.timelineDeadline warp group)
def execSleepWake (warp group : Nat) (s : State) : Out State := .next (s.wakeSleeper warp group)

/-! ### Engines -/

def execCopyQueueAccept (op : Nat) (s : State) : Out State := .next (s.acceptCopy op)
def execCopyChannelStart (cluster : Nat) (s : State) : Out State := .next (s.startCopy cluster)
/-- R178, R388: a checkpoint holds the copies; requests for its lines then proceed (R244, R384). -/
def execCopyComplete (op : Nat) (answers : List Nat) (s : State) : Out State :=
  .next (if s.ckpt.isSome then s else (s.completeCopy op answers).serveRequests)
def execMatrixOpComplete (op : Nat) (s : State) : Out State := .next (s.completeMat op)
def execTokenRelease (sub tile : Nat) (s : State) : Out State := .next (s.releaseToken sub tile)
def execTsetTableLoaded (op : Nat) (s : State) : Out State := .next (s.loadTable op)
def execTraversalPop (walk lane : Nat) (s : State) : Out State := .next (s.traversalPop walk lane)
def execDeckSpill (walk lane : Nat) (s : State) : Out State := .next (s.deckSpill walk lane)
def execRoutineCall (walk : Nat) (s : State) : Out State := .next (s.routineCall walk)
def execWalkComplete (walk : Nat) (s : State) : Out State := .next (s.completeWalk walk)
def execHandleSpaceReturn (old : Nat) (s : State) : Out State := .next (s.returnHandle old)

/-! ### Scheduling -/

def execDealerDealTeam (die : Nat) (s : State) : Out State := .next (s.dealTeam die)
def execDealerSteal (die : Nat) (s : State) : Out State := .next (s.dealerSteal die)
def execKittySteal (cluster : Nat) (s : State) : Out State := .next (s.kittySteal cluster)
def execTaskStart (cluster : Nat) (s : State) : Out State := .next (s.taskStart cluster)
def execWarpSlotRelease (warp : Nat) (s : State) : Out State := .next (s.releaseSlot warp)
def execTeamComplete (team : Nat) (s : State) : Out State := .next (s.completeTeam team)
def execStageSlotRestart (team slot : Nat) (s : State) : Out State := .next (s.restartStage team slot)

/-! ### Time and power -/

def execCalendarTurn (s : State) : Out State := .next s.beginTurn
def execBucketRefill (s : State) : Out State := .next s.nextSlot
def execPermitRefill (cluster : Nat) (s : State) : Out State := .next (s.endCycle cluster)
def execDroopStretch (cluster : Nat) (s : State) : Out State := .next (s.startStretch cluster)
def execFllStepDown (cluster : Nat) (s : State) : Out State := .next (s.stepDown cluster)
def execFrequencyChange (cluster code : Nat) (s : State) : Out State := .next (s.changeFreq cluster code)
def execRetentionEntry (cluster : Nat) (s : State) : Out State := .next (s.enterRetention cluster)
def execRetentionExit (cluster : Nat) (parityOk testOk : Bool) (s : State) : Out State :=
  .next (s.leaveRetention cluster parityOk testOk)

/-! ### Errors -/

def execUncorrectedError (kind place : Nat) (lanes : Lanes) (s : State) : Out State := .next (s.uncorrected kind place lanes)
def execSelfTest (kind place : Nat) (pass : Bool) (s : State) : Out State := .next (s.selfTested kind place pass)

/-! ### The claim plane -/

def execClaimArrival (msg : Nat) (remote : Option Remote) (s : State) : Out State := .next (s.claimArrives msg remote)
def execInboxDelivery (msg : Nat) (remote : Option Remote) (s : State) : Out State := .next (s.inboxDelivery msg remote)
def execObjectionArrival (msg : Nat) (remote : Option Remote) (answer : Nat) (s : State) : Out State :=
  .next (s.objectionArrives msg remote answer)
def execClaimWindowEnd (proposal : Nat) (s : State) : Out State := .next (s.commitProposal proposal)
def execClaimOutcome (msg answer : Nat) (s : State) : Out State := .next (s.claimOutcome msg answer)
def execClaimPlaneUnreachable (device : Nat) (s : State) : Out State := .next (s.planeLost device)
def execPlaneReachable (device : Nat) (s : State) : Out State := .next (s.planeBack device)

/-! ### Peers and the host -/

def execPostedWriteSend (write : Nat) (s : State) : Out State := .next (s.sendPosted write).serveRequests
def execPostedWriteReport (write : Nat) (refused : Bool) (s : State) : Out State := .next (s.reportPosted write refused)
def execPostedWriteLost (write : Nat) (s : State) : Out State := .next (s.losePosted write)
def execInboundPostedWrite (tag pa : Nat) (bytes : List (Option Byte)) (s : State) : Out State :=
  .next (s.arrive (.peerWrite tag pa bytes))
def execInboundRead (tag pa size : Nat) (s : State) : Out State := .next (s.arrive (.peerRead tag pa size))
def execInboundAtomic (tag pa op size data cmp : Nat) (s : State) : Out State := .next (s.arrive (.peerAtomic tag pa op size data cmp))
def execHostWrite (pa : Nat) (bytes : List Byte) (s : State) : Out State := .next (s.arrive (.hostWrite pa bytes))
def execHostRead (tag pa size : Nat) (s : State) : Out State := .next (s.arrive (.hostRead tag pa size))
def execDoorbellWrite (value : Word) (s : State) : Out State := .next (s.ringDoorbell value)
def execRecoveryGo (s : State) : Out State := .next s.recoveryGo
def execBoot (s : State) : Out State := .next s.bootStep

/-! ### Writes of special registers -/

def execTlbinvWrite (warp : Nat) (value : DWord) (s : State) : Out State := .next (s.tlbInvalidate warp value)
def execPctlSave (warp : Nat) (value : DWord) (s : State) : Out State := .next (s.pctlSave warp value)
def execPreemptSaveComplete (team : Nat) (s : State) : Out State := .next (s.saveTeam team)
def execPctlRestore (warp : Nat) (value : DWord) (s : State) : Out State := .next (s.restoreStep warp value)
def execHvcommitGo (s : State) : Out State := .next s.commitBlock
def execFlushpaWrite (value : DWord) (s : State) : Out State := .next (s.flushPa value)
def execCheckpointSave (s : State) : Out State := .next (s.startCheckpoint 0)
def execCheckpointRestore (s : State) : Out State := .next (s.startCheckpoint 1)
def execCheckpointComplete (errors : Nat) (s : State) : Out State := .next (s.finishCheckpoint errors)
def execAttestExtend (value : DWord) (s : State) : Out State := .next (s.attestExtend value)
def execAttestQuote (value : DWord) (s : State) : Out State := .next (s.attestQuote value)
def execSketchEventWrite (cluster which : Nat) (value : DWord) (s : State) : Out State :=
  .next (s.sketchEventSet cluster which value)
def execSketchDump (warp : Nat) (value : DWord) (s : State) : Out State :=
  .next (s.inSlot (partOf s warp) (.sketchDump warp value) fun s => s.dumpSketches warp value)
def execHistogramClear (sub : Nat) (s : State) : Out State := .next (s.clearHistogram sub)
def execClaimGroupDestroy (part group : Nat) (s : State) : Out State := .next (s.destroyGroup part group)
def execPmodeWrite (value : DWord) (s : State) : Out State := .next (s.setMode value)
def execSessionRemap (warp : Nat) (value : DWord) (s : State) : Out State :=
  let part := partOf s warp
  let act := fun s : State => s.remapSession warp value
  .next (if traces s part then s.inSlot part (.sessionRemap warp value) act else act s)

/-! ### What comes next by itself -/

/-- A step that may come next. -/
abbrev Choice := Instr × (State → Out State)

/-- Free answers of the claim plane. -/
def freeAnswers (s : State) (n : Nat) : List Nat := (List.range n).map fun i => (Config.freeValue (s.free + i)).toNat

/-- Free answers of a peer to the lanes of an access, and to the lines that a copy reads: 128 bytes, or its refusal (R390). -/
def laneAnswers (s : State) (o : MemOp) (n : Nat) : List Nat := (List.range n).map (freeAnswer (o.kind.acc == .atomic) s.free)
def lineAnswers (s : State) (n : Nat) : List Nat :=
  (List.range n).map fun i => (List.range 17).foldl (fun v k => v + 2 ^ (64 * k) * ((Config.freeValue (s.free + 17 * i + k)).toNat % if k = 16 then 2 else 2 ^ 64)) 0

/-- The lanes of one home access of an operation: one at a time, or all of them where they are performed together. -/
def accessSets (s : State) (o : MemOp) : List Lanes :=
  let m := o.lanes &&& ~~~o.faulted
  if wholeAccess s o then [m] else (laneList m).map laneBit

/-- Steps of the accesses in flight: translation, one lane at a time at its home, fences, deliveries. -/
def memChoices (s : State) : List Choice :=
  List.flatten [
    s.mops.map (fun e => (.pageWalk e.1 e.2.lanes, execPageWalk e.1 e.2.lanes)),
    (s.mops.flatMap fun e => (accessSets s e.2).map fun m =>
      (.homeAccess e.1 m (laneAnswers s e.2 64) [], execHomeAccess e.1 m (laneAnswers s e.2 64) [])),
    s.mops.map (fun e => (.fenceComplete e.1, execFenceComplete e.1)),
    s.mops.map (fun e => (.dataWatchMatch e.1, execDataWatchMatch e.1)),
    (s.mops.map (·.1) ++ s.replies.map (·.1) ++ s.pushes.map (·.1)).map (fun id => (.resultDelivery id, execResultDelivery id)),
    s.posted.map (fun e => (.postedWriteSend e.1, execPostedWriteSend e.1)),
    (s.posted.filter fun e => overdue s e.2).map (fun e => (.postedWriteLost e.1, execPostedWriteLost e.1)),
    if freeBit s then s.posted.map fun e => (.postedWriteReport e.1 false, execPostedWriteReport e.1 false) else []]

/-- Clusters that hold a warp, a record or an engine operation. -/
def busyClusters (s : State) : List Nat :=
  (s.warps.map (fun e => clusterOf e.1) ++ s.copies.map (fun e => e.2.cluster) ++ s.clusters.map (·.1)).dedup

def engineChoices (s : State) : List Choice :=
  List.flatten [
    s.copies.map (fun e => (.copyQueueAccept e.1, execCopyQueueAccept e.1)),
    (s.copies.map fun e => e.2.cluster).dedup.map (fun c => (.copyChannelStart c, execCopyChannelStart c)),
    s.copies.map (fun e => (.copyComplete e.1 (lineAnswers s 1), execCopyComplete e.1 (lineAnswers s 1))),
    s.mats.map (fun e => (.matrixOpComplete e.1, execMatrixOpComplete e.1)),
    s.mats.map (fun e => (.tokenRelease e.2.sub e.2.tile, execTokenRelease e.2.sub e.2.tile)),
    s.tsets.map (fun e => (.tsetTableLoaded e.1, execTsetTableLoaded e.1)),
    (s.walks.flatMap fun e => (laneList e.2.walking).map fun l => (.traversalPop e.1 l, execTraversalPop e.1 l)),
    s.walks.map (fun e => (.routineCall e.1, execRoutineCall e.1)),
    s.walks.map (fun e => (.walkComplete e.1, execWalkComplete e.1)),
    s.oldHandles.map (fun e => (.handleSpaceReturn e.1, execHandleSpaceReturn e.1))]

def scheduleChoices (s : State) : List Choice :=
  List.flatten [
    (busyClusters s).map (fun c => (.taskStart c, execTaskStart c)),
    s.warps.map (fun e => (.warpSlotRelease e.1, execWarpSlotRelease e.1)),
    s.teams.map (fun e => (.teamComplete e.1, execTeamComplete e.1)),
    (s.teams.flatMap fun e => (laneList e.2.open_).map fun w => (.stageSlotRestart e.1 w, execStageSlotRestart e.1 w)),
    (List.range 4).map (fun d => (.dealerDealTeam d, execDealerDealTeam d)),
    (List.range 4).map (fun d => (.dealerSteal d, execDealerSteal d)),
    if s.clusters.any fun e => !e.2.kitty.isEmpty then (List.range 320).map fun c => (.kittySteal c, execKittySteal c) else []]

def claimChoices (s : State) : List Choice :=
  let a := (freeAnswers s 2).headD 0 + 2 ^ 64 * (freeAnswers s 2).getD 1 0
  List.flatten [
    s.cmsgs.map (fun e => (.claimArrival e.1 none, execClaimArrival e.1 none)),
    s.cmsgs.map (fun e => (.inboxDelivery e.1 none, execInboxDelivery e.1 none)),
    s.cmsgs.map (fun e => (.objectionArrival e.1 none ((freeAnswers s 1).headD 0),
      execObjectionArrival e.1 none ((freeAnswers s 1).headD 0))),
    s.proposals.map (fun e => (.claimWindowEnd e.1, execClaimWindowEnd e.1)),
    s.cmsgs.map (fun e => (.claimOutcome e.1 a, execClaimOutcome e.1 a))]

/-- A step that waits for a slot of its partition (R291). -/
def owedStep (i : Instr) : Choice :=
  (i, match i with
    | .pctlRestore g v => execPctlRestore g v
    | .sketchDump g v => execSketchDump g v
    | .sessionRemap g v => execSessionRemap g v
    | _ => Host.Outcome.next)

/-- Time waits that are over, starved warps, clusters that a wake event brings back, teams that are quiet, tests. -/
def waitChoices (s : State) : List Choice :=
  List.flatten [
    s.warps.map (fun e => (.starvationBound e.1, execStarvationBound e.1)),
    (s.warps.flatMap fun e => (List.range e.2.r.groups.length).map fun i => (.tlwaitDeadline e.1 i, execTlwaitDeadline e.1 i)),
    (s.warps.flatMap fun e => (List.range e.2.r.groups.length).map fun i => (.sleepWake e.1 i, execSleepWake e.1 i)),
    ((s.clusters.filter fun e => e.2.retention && wakeNear s e.1).map fun e =>
      (.retentionExit e.1 true true, execRetentionExit e.1 true true)),
    s.preempts.map (fun e => (.preemptSaveComplete e.1, execPreemptSaveComplete e.1)),
    s.tests.map (fun e => (.selfTest e.1 e.2 (freeBit s), execSelfTest e.1 e.2 (freeBit s))),
    s.owed.map owedStep,
    if s.ckpt.isSome then [(.checkpointComplete 0, execCheckpointComplete 0)] else []]

/-- The step changes the state. -/
def Choice.acts (c : Choice) (s : State) : Bool :=
  match c.2 s with
  | .next t => decide (t ≠ s)
  | _ => false

/-- The step that the part takes when no bundle can issue: boot, then the first of the others that has an effect. (log 6, DESIGN CHOICE) -/
def nextChoice (s : State) : Option Instr :=
  (((.boot, execBoot) :: memChoices s ++ engineChoices s ++ scheduleChoices s ++ claimChoices s ++ waitChoices s).find?
    fun c => Choice.acts c s).map (·.1)

/-- Nothing is left to do in this cycle: it ends on every cluster, and where a free bit says so a ns passes. (log 6, DESIGN CHOICE; log 23, DESIGN CHOICE) -/
def State.passTime (s : State) : State :=
  let sleeps := fun (c : Nat) => !(s.cluster c).retention &&
    (decide (4096 ≤ (s.cluster c).idle) || ((s.warps.any fun e => clusterOf e.1 == c) && longWait s c))
  let asleep := ((busyClusters s).filter sleeps).map Instr.retentionEntry
  let s := s.trimL2
  let t := if freeBit s then ({ s with free := s.free + 1 }).tick else { s with free := s.free + 1 }
  t.first ((List.range 320).map Instr.permitRefill ++ asleep)

/-! ### A bundle -/

/-- Run the next meaning on the state that the one before leaves. -/
def thenRun (o : Out State) (f : State → Out State) : Out State :=
  match o with
  | .next s => f s
  | .fault r => .fault r
  | .refused r => .refused r

/-- A bundle of the warp that issues: its four meanings in slot order on the state of its issue. -/
def finishBundle (o : Out State) : Out State := thenRun o fun s => .next s.endIssue

/-! ### Placing an instruction (log 40, DESIGN CHOICE) -/

/-- The warp whose bundle the next step fetches. -/
def fetchWarp (s : State) : Option Nat :=
  let ts := turns s
  match contenders s ts with
  | c :: cs => (selected s (rivals s (subOf c.1.1) (c :: cs))).map fun c => c.1.1
  | [] => (ts.find? fun c => match c.2 with
    | .fetch _ => true
    | .held 17 => true
    | _ => false).map fun c => c.1.1

/-- The entries of the hypervisor's address space that map its body. -/
def bodyTables : List (Nat × Nat) := [(0xC000000000, 0xC000001001), (0xC000001018, 0xC000005001), (0xC000005000, 0xC0000000DF)]

/-- A part with no warp holds an image's warp and the entries that map its body. (log 40, DESIGN CHOICE) -/
def State.loaded (s : State) : State :=
  if s.warps.isEmpty then { s with mem := putEntries storageOf bodyTables s.mem }.startHypervisor 0 32 else s

/-- The 32 bytes of a bundle where warp g fetches. -/
def State.placeBundle (s : State) (g w : Nat) : State :=
  match tfind s.warps g with
  | none => s
  | some x =>
    match (translate s (clusterOf g) x.who .fetch x.r.group.pc.toNat).2 with
    | .ok k =>
      (s.setHomeBytes k (natToBytes 32 (w % 2 ^ 256))).modWarp g fun x =>
        { x with missed := false, r := x.r.setGroup { x.r.group with ahead := [(x.r.group.pc, BitVec.ofNat 256 w)] } }
    | _ => s

end Sys2Proof.Machine
end

