-- ==== Sys2Proof/Machine/Memory.lean ====
section
/-! DEFINITION. The meanings of the memory slot (R141 to R159). An access goes into flight; the steps of the memory system
perform and deliver it. -/

namespace Sys2Proof.Machine

/-- An instruction that goes into flight, by its form (R137 to R139); in precise memory mode it may be performed at once (R346). -/
def State.issueAccess (s : State) (w : Warp) (i : Instr) (f : Syl) : State :=
  match memForm i, shape i with
  | some m, some h =>
    let t := s.issueMem w i f m h
    (match s.issue.atOnce with
     | some base => t.accessNow s.nextId base
     | none => t)
  | _, _ => s

/-- HALLOC, HFREE and HQRY act once for the warp when a lane is active (R152 to R154); each counts as a memory-slot
instruction (R356). -/
def State.handleOp (s : State) (w : Warp) (f : Syl) (act : State → State) : State :=
  if w.r.active f.g1 f.g2 = 0 then s.countMem else (act s).countMem

/-- A 32-bit source of a uniform field. -/
def uniform32 (s : State) (w : Warp) (f : Syl) (code : BitVec 8) : Nat :=
  (src32 w s.issue f.e code.toNat (lowLane w.r.group.mask)).toNat

/-- Issue of a handle request: it is performed, or in precise memory mode queues behind a checkpoint (R346). (log 26, DEDUCED) -/
def State.issueHandle (s : State) (w : Warp) (f : Syl) (count : Nat) (r : HandleReq) : State :=
  let id := s.nextId
  let s := s.issueReply s.cur f.d.toNat count w.r.group.mask [] false true
  let q : Reply := { warp := s.cur, dest := f.d.toNat, count := count, lanes := w.r.group.mask, scalar := decide (192 ≤ f.d.toNat), vals := [],
                     ready := false, entry := true, req := some r, seq := w.memSeq }
  if w.precise && !w.checkpoint.isEmpty then { s with replies := tput s.replies id q }
  else
    let x := s.handleNow w (clusterOf s.cur) id r
    { x.1 with replies := tput x.1.replies id { q with vals := scalarVals x.2.1, ready := x.2.2, req := none } }

/-- HALLOC's request. -/
def State.issueHalloc (s : State) (w : Warp) (f : Syl) : State :=
  s.issueHandle w f 1 (.halloc (uniform32 s w f f.c) (uniform32 s w f f.a) (uniform32 s w f f.b) f.op64)

/-- HFREE: the status 0 waits for the space to return. -/
def State.issueHfree (s : State) (w : Warp) (f : Syl) : State := s.issueHandle w f 1 (.hfree (uniform32 s w f f.a))

/-- HQRY's pair. -/
def State.issueHqry (s : State) (w : Warp) (f : Syl) : State := s.issueHandle w f 2 (.hqry (uniform32 s w f f.a))

/-- PREF: the lanes whose addresses are canonical and aligned to the size that M gives go to the memory system, the others are dropped
(R130, R148). -/
def State.issuePref (s : State) (w : Warp) (f : Syl) : State :=
  let act := w.r.active f.g1 f.g2
  let sc := match shape (.pref f) with
    | some h => memScalar (.pref f) h f
    | none => false
  let m := { MemForm.plain .pref f 0 0 with ro := f.h == 3 }
  let ok := fun va => canonical va && va % m.size == 0
  let lanes := (if sc then laneBit (lowLane act) else act) &&& maskOf fun l => ok (memAddr w s.issue m f sc l)
  if act = 0 ∨ lanes = 0 then s.countMem
  else
    let o := { memOpOf s w (.pref f) f m sc act with lanes := lanes }
    { s with mops := tput s.mops s.nextId o, nextId := s.nextId + 1 }.countMem

/-- MNOP has no effect (R53). -/
def execMnop (f : Syl) (s : State) : Out State := runSyl (.mnop f) s fun _ s => s

/-- LDG (R141, R142): a load, of the read-only L1 with `.ro`. -/
def execLdg (f : Syl) (s : State) : Out State := runSyl (.ldg f) s fun w s => s.issueAccess w (.ldg f) f

/-- STG (R141): a store. -/
def execStg (f : Syl) (s : State) : Out State := runSyl (.stg f) s fun w s => s.issueAccess w (.stg f) f

/-- LDS (R143): a load from a tile handle. -/
def execLds (f : Syl) (s : State) : Out State := runSyl (.lds f) s fun w s => s.issueAccess w (.lds f) f

/-- STS (R143): a store to a tile handle. -/
def execSts (f : Syl) (s : State) : Out State := runSyl (.sts f) s fun w s => s.issueAccess w (.sts f) f

/-- LDC (R142): a load through the read-only L1. -/
def execLdc (f : Syl) (s : State) : Out State := runSyl (.ldc f) s fun w s => s.issueAccess w (.ldc f) f

/-- LDACQ (R145): an acquire load that holds later issue. -/
def execLdacq (f : Syl) (s : State) : Out State := runSyl (.ldacq f) s fun w s => s.issueAccess w (.ldacq f) f

/-- STREL (R145): a release store. -/
def execStrel (f : Syl) (s : State) : Out State := runSyl (.strel f) s fun w s => s.issueAccess w (.strel f) f

/-- ATOM (R149, R150): an atomic operation that gives back the old value. -/
def execAtom (f : Syl) (s : State) : Out State := runSyl (.atom f) s fun w s => s.issueAccess w (.atom f) f

/-- ATOMS (R149, R150): an atomic operation on a tile. -/
def execAtoms (f : Syl) (s : State) : Out State := runSyl (.atoms f) s fun w s => s.issueAccess w (.atoms f) f

/-- RED (R149, R150): a reduction without a result. -/
def execRed (f : Syl) (s : State) : Out State := runSyl (.red f) s fun w s => s.issueAccess w (.red f) f

/-- FENCE (R146). -/
def execFence (f : Syl) (s : State) : Out State := runSyl (.fence f) s fun w s => s.issueAccess w (.fence f) f

/-- RFENCE (R147). -/
def execRfence (f : Syl) (s : State) : Out State := runSyl (.rfence f) s fun w s => s.issueAccess w (.rfence f) f

/-- QPOST (R156). -/
def execQpost (f : Syl) (s : State) : Out State := runSyl (.qpost f) s fun w s => s.issueAccess w (.qpost f) f

/-- QTAKE (R157). -/
def execQtake (f : Syl) (s : State) : Out State := runSyl (.qtake f) s fun w s => s.issueAccess w (.qtake f) f

/-- TLSIG (R158). -/
def execTlsig (f : Syl) (s : State) : Out State := runSyl (.tlsig f) s fun w s => s.issueAccess w (.tlsig f) f

/-- ICINV (R159). -/
def execIcinv (f : Syl) (s : State) : Out State := runSyl (.icinv f) s fun w s => s.issueAccess w (.icinv f) f

/-- LDL (R144): a load from the spill area. -/
def execLdl (f : Syl) (s : State) : Out State := runSyl (.ldl f) s fun w s => s.issueAccess w (.ldl f) f

/-- STL (R144): a store to the spill area. -/
def execStl (f : Syl) (s : State) : Out State := runSyl (.stl f) s fun w s => s.issueAccess w (.stl f) f

/-- PREF (R148): a hint that asks for the lines of its lanes. -/
def execPref (f : Syl) (s : State) : Out State := runSyl (.pref f) s fun w s => s.issuePref w f

/-- HALLOC (R152). -/
def execHalloc (f : Syl) (s : State) : Out State := runSyl (.halloc f) s fun w s => s.handleOp w f fun s => s.issueHalloc w f

/-- HFREE (R153). -/
def execHfree (f : Syl) (s : State) : Out State := runSyl (.hfree f) s fun w s => s.handleOp w f fun s => s.issueHfree w f

/-- HQRY (R154). -/
def execHqry (f : Syl) (s : State) : Out State := runSyl (.hqry f) s fun w s => s.handleOp w f fun s => s.issueHqry w f

end Sys2Proof.Machine
end

