-- ==== Sys2Proof/Machine/Vector.lean ====
section
/-! DEFINITION. The meanings of the vector slot (R102 to R128). -/

namespace Sys2Proof.Machine

/-! ### Sources and results by lane -/

/-- The 32-bit and 64-bit values of A, B and C in a lane (R94). -/
def srcA (w : Warp) (s : State) (f : Syl) (l : Nat) : Word := src32 w s.issue f.e f.a.toNat l
def srcB (w : Warp) (s : State) (f : Syl) (l : Nat) : Word := src32 w s.issue f.e f.b.toNat l
def srcC (w : Warp) (s : State) (f : Syl) (l : Nat) : Word := src32 w s.issue f.e f.c.toNat l
def srcA64 (w : Warp) (s : State) (f : Syl) (l : Nat) : DWord := src64 w s.issue f.e f.a.toNat l
def srcB64 (w : Warp) (s : State) (f : Syl) (l : Nat) : DWord := src64 w s.issue f.e f.b.toNat l
def srcC64 (w : Warp) (s : State) (f : Syl) (l : Nat) : DWord := src64 w s.issue f.e f.c.toNat l

/-- A 32-bit result. -/
def low32 (x : Word) : DWord := x.zeroExtend 64
/-- A 32-bit floating function's result. -/
def low32n (n : Nat) : DWord := BitVec.ofNat 64 n

/-- An operation with a V, S or `%zero` destination: its value in a lane from the warp at issue (R98 to R100). -/
def vecOp (i : Instr) (f : Syl) (cls : Nat) (wide : Bool) (val : Warp → State → Nat → DWord) (s : State) : Out State :=
  runSyl i s fun w s =>
    match shapeAt i w.r.fmt with
    | some h => s.vecResult w h f cls wide (val w s)
    | none => s

/-- An operation that writes predicate D from a test of each active lane (R95). -/
def predOp (i : Instr) (f : Syl) (cls : Nat) (test : Warp → State → Nat → Bool) (s : State) : Out State :=
  runSyl i s fun w s =>
    let act := w.r.active f.g1 f.g2
    if act = 0 then s else s.pushPred f.d.toNat cls act (act &&& maskOf (test w s))

/-- VNOP (R103). -/
def execVnop (f : Syl) (s : State) : Out State := runSyl (.vnop f) s fun _ s => s

/-! ### Integer arithmetic (R104) -/

/-- VADD (R104). -/
def execVadd (f : Syl) (s : State) : Out State :=
  vecOp (.vadd f) f 0 false (fun w s l => low32 (srcA w s f l + srcB w s f l)) s

/-- VSUB (R104). -/
def execVsub (f : Syl) (s : State) : Out State :=
  vecOp (.vsub f) f 0 false (fun w s l => low32 (srcA w s f l - srcB w s f l)) s

/-- The carry into lane l: a scalar form reads it in the lowest active lane (R99). -/
def carryIn (w : Warp) (f : Syl) (h : Shape) (l : Nat) : Bool :=
  (w.r.readP f.c.toNat).getLsbD (if isScalarForm h f then lowLane (w.r.active f.g1 f.g2) else l)

/-- The 33-bit sum of VADDC in a lane; that of a scalar form is the group's lowest lane's. -/
def carrySum (w : Warp) (s : State) (f : Syl) (h : Shape) (l : Nat) : Nat :=
  let q := if isScalarForm h f then lowLane w.r.group.mask else l
  addcLane (srcA w s f q) (srcB w s f q) (carryIn w f h l)

/-- VADDC (R104): sum and carry-out are written at the same cycle. -/
def execVaddc (f : Syl) (s : State) : Out State :=
  runSyl (.vaddc f) s fun w s =>
    match shape (.vaddc f) with
    | none => s
    | some h =>
      let act := w.r.active f.g1 f.g2
      if act = 0 then s
      else
        (s.vecResult w h f 0 false fun l => BitVec.ofNat 64 (carrySum w s f h l % 2 ^ 32)).pushPred f.c.toNat 0 act
          (act &&& maskOf fun l => decide (2 ^ 32 ≤ carrySum w s f h l))

/-- VMUL (R104). -/
def execVmul (f : Syl) (s : State) : Out State :=
  vecOp (.vmul f) f 0 false (fun w s l => low32 (srcA w s f l * srcB w s f l)) s

/-- VMULH (R104). -/
def execVmulh (f : Syl) (s : State) : Out State :=
  vecOp (.vmulh f) f 0 false (fun w s l => low32 (mulhLane f.op64 (srcA w s f l) (srcB w s f l))) s

/-- VMULW (R104): D is a pair. -/
def execVmulw (f : Syl) (s : State) : Out State :=
  vecOp (.vmulw f) f 0 true (fun w s l => mulwLane f.op64 (srcA w s f l) (srcB w s f l)) s

/-- VMAD (R104). -/
def execVmad (f : Syl) (s : State) : Out State :=
  vecOp (.vmad f) f 0 false (fun w s l => low32 (srcA w s f l * srcB w s f l + srcC w s f l)) s

/-- VMIN (R104). -/
def execVmin (f : Syl) (s : State) : Out State :=
  vecOp (.vmin f) f 0 false (fun w s l => low32 (minLane f.op64 (srcA w s f l) (srcB w s f l))) s

/-- VMAX (R104). -/
def execVmax (f : Syl) (s : State) : Out State :=
  vecOp (.vmax f) f 0 false (fun w s l => low32 (maxLane f.op64 (srcA w s f l) (srcB w s f l))) s

/-- VABSD (R104). -/
def execVabsd (f : Syl) (s : State) : Out State :=
  vecOp (.vabsd f) f 0 false (fun w s l => low32 (absdLane f.op64 (srcA w s f l) (srcB w s f l))) s

/-- VCLAMP (R104): the lower bound first. -/
def execVclamp (f : Syl) (s : State) : Out State :=
  vecOp (.vclamp f) f 0 false (fun w s l => low32 (clampLane f.op64 (srcA w s f l) (srcB w s f l) (srcC w s f l))) s

/-! ### Logic, shifts, bit fields (R105 to R107) -/

/-- VAND (R105). -/
def execVand (f : Syl) (s : State) : Out State :=
  vecOp (.vand f) f 0 false (fun w s l => low32 (srcA w s f l &&& srcB w s f l)) s

/-- VOR (R105). -/
def execVor (f : Syl) (s : State) : Out State :=
  vecOp (.vor f) f 0 false (fun w s l => low32 (srcA w s f l ||| srcB w s f l)) s

/-- VXOR (R105). -/
def execVxor (f : Syl) (s : State) : Out State :=
  vecOp (.vxor f) f 0 false (fun w s l => low32 (srcA w s f l ^^^ srcB w s f l)) s

/-- VANDN (R105). -/
def execVandn (f : Syl) (s : State) : Out State :=
  vecOp (.vandn f) f 0 false (fun w s l => low32 (srcA w s f l &&& ~~~(srcB w s f l))) s

/-- VSHL (R105). -/
def execVshl (f : Syl) (s : State) : Out State :=
  vecOp (.vshl f) f 0 false (fun w s l => low32 (shlLane (srcA w s f l) (srcB w s f l))) s

/-- VSHR (R105). -/
def execVshr (f : Syl) (s : State) : Out State :=
  vecOp (.vshr f) f 0 false (fun w s l => low32 (shrLane f.op64 (srcA w s f l) (srcB w s f l))) s

/-- VBFE (R106). -/
def execVbfe (f : Syl) (s : State) : Out State :=
  vecOp (.vbfe f) f 0 false (fun w s l => low32 (bfeLane f.op64 (srcA w s f l) (srcB w s f l))) s

/-- VBFI (R106). -/
def execVbfi (f : Syl) (s : State) : Out State :=
  vecOp (.vbfi f) f 0 false (fun w s l => low32 (bfiLane (srcA w s f l) (srcB w s f l) (srcC w s f l))) s

/-- VPOPC (R105). -/
def execVpopc (f : Syl) (s : State) : Out State :=
  vecOp (.vpopc f) f 0 false (fun w s l => low32 (popcLane (srcA w s f l))) s

/-- VCLZ (R105). -/
def execVclz (f : Syl) (s : State) : Out State :=
  vecOp (.vclz f) f 0 false (fun w s l => low32 (clzLane (srcA w s f l))) s

/-- VBREV (R105). -/
def execVbrev (f : Syl) (s : State) : Out State :=
  vecOp (.vbrev f) f 0 false (fun w s l => low32 (brevLane (srcA w s f l))) s

/-- VPERM (R107). -/
def execVperm (f : Syl) (s : State) : Out State :=
  vecOp (.vperm f) f 0 false (fun w s l => low32 (permLane (srcA w s f l) (srcB w s f l) (srcC w s f l))) s

/-! ### Moves, selects, compares, requantisation (R108 to R110) -/

/-- VSEL (R108). -/
def execVsel (f : Syl) (s : State) : Out State :=
  vecOp (.vsel f) f 0 false (fun w s l => low32 (if (w.r.readP f.c.toNat).getLsbD l then srcA w s f l else srcB w s f l)) s

/-- VCMP (R109). -/
def execVcmp (f : Syl) (s : State) : Out State :=
  predOp (.vcmp f) f 0 (fun w s l => intCond f.m.toNat (f.e.getLsbD 0) (srcA w s f l) (srcB w s f l)) s

/-- VMOV (R108), of one register or of a pair. -/
def execVmov (f : Syl) (s : State) : Out State :=
  vecOp (.vmov f) f 0 f.op64 (fun w s l => if f.op64 then srcA64 w s f l else low32 (srcA w s f l)) s

/-- VREQ (R110). -/
def execVreq (f : Syl) (s : State) : Out State :=
  vecOp (.vreq f) f 0 false (fun w s l => low32 (reqLane f.op64 (f.e.toNat % 32) (srcA w s f l) (srcB w s f l) (srcC w s f l))) s

/-! ### FP32 (R111 to R114) -/

/-- VFADD (R111). -/
def execVfadd (f : Syl) (s : State) : Out State :=
  vecOp (.vfadd f) f 1 false (fun w s l => low32n (fpAdd (fpEnv s w) fp32 (srcA w s f l).toNat (srcB w s f l).toNat)) s

/-- VFSUB (R111). -/
def execVfsub (f : Syl) (s : State) : Out State :=
  vecOp (.vfsub f) f 1 false (fun w s l => low32n (fpSub (fpEnv s w) fp32 (srcA w s f l).toNat (srcB w s f l).toNat)) s

/-- VFMUL (R111). -/
def execVfmul (f : Syl) (s : State) : Out State :=
  vecOp (.vfmul f) f 1 false (fun w s l => low32n (fpMul (fpEnv s w) fp32 (srcA w s f l).toNat (srcB w s f l).toNat)) s

/-- VFMA (R111): one rounding. -/
def execVfma (f : Syl) (s : State) : Out State :=
  vecOp (.vfma f) f 1 false (fun w s l => low32n (fpFma (fpEnv s w) fp32 (srcA w s f l).toNat (srcB w s f l).toNat (srcC w s f l).toNat)) s

/-- VFMIN (R71, R111). -/
def execVfmin (f : Syl) (s : State) : Out State :=
  vecOp (.vfmin f) f 1 false (fun w s l => low32n (fp32.minmax false (srcA w s f l).toNat (srcB w s f l).toNat)) s

/-- VFMAX (R71, R111). -/
def execVfmax (f : Syl) (s : State) : Out State :=
  vecOp (.vfmax f) f 1 false (fun w s l => low32n (fp32.minmax true (srcA w s f l).toNat (srcB w s f l).toNat)) s

/-- VFCMP (R114). -/
def execVfcmp (f : Syl) (s : State) : Out State :=
  predOp (.vfcmp f) f 1 (fun w s l => fpCond f.m.toNat (fp32.value (srcA w s f l).toNat) (fp32.value (srcB w s f l).toNat)) s

/-- VFCLASS (R113). -/
def execVfclass (f : Syl) (s : State) : Out State :=
  vecOp (.vfclass f) f 1 false (fun w s l => low32n (fpClass (srcA w s f l).toNat)) s

/-- VFRND (R112). -/
def execVfrnd (f : Syl) (s : State) : Out State :=
  vecOp (.vfrnd f) f 1 false (fun w s l => low32n (fpRoundInt (frndMode (fpEnv s w) f.m.toNat) (srcA w s f l).toNat)) s

/-! ### FP64 (R114, R115) -/

/-- VDADD and its `.sub` (R115). -/
def execVdadd (f : Syl) (s : State) : Out State :=
  vecOp (.vdadd f) f 2 true (fun w s l => low32n (if f.op64 then fpSub (fpEnv s w) fp64 (srcA64 w s f l).toNat (srcB64 w s f l).toNat
    else fpAdd (fpEnv s w) fp64 (srcA64 w s f l).toNat (srcB64 w s f l).toNat)) s

/-- VDMUL (R115). -/
def execVdmul (f : Syl) (s : State) : Out State :=
  vecOp (.vdmul f) f 2 true (fun w s l => low32n (fpMul (fpEnv s w) fp64 (srcA64 w s f l).toNat (srcB64 w s f l).toNat)) s

/-- VDFMA (R115). -/
def execVdfma (f : Syl) (s : State) : Out State :=
  vecOp (.vdfma f) f 2 true (fun w s l => low32n (fpFma (fpEnv s w) fp64 (srcA64 w s f l).toNat (srcB64 w s f l).toNat (srcC64 w s f l).toNat)) s

/-- VDMIN (R115). -/
def execVdmin (f : Syl) (s : State) : Out State :=
  vecOp (.vdmin f) f 2 true (fun w s l => low32n (fp64.minmax false (srcA64 w s f l).toNat (srcB64 w s f l).toNat)) s

/-- VDMAX (R115). -/
def execVdmax (f : Syl) (s : State) : Out State :=
  vecOp (.vdmax f) f 2 true (fun w s l => low32n (fp64.minmax true (srcA64 w s f l).toNat (srcB64 w s f l).toNat)) s

/-- VDCMP (R114). -/
def execVdcmp (f : Syl) (s : State) : Out State :=
  predOp (.vdcmp f) f 2 (fun w s l => fpCond f.m.toNat (fp64.value (srcA64 w s f l).toNat) (fp64.value (srcB64 w s f l).toNat)) s

/-! ### Packed 16-bit arithmetic (R116) -/

/-- VHADD2 and its `.sub` (R116). -/
def execVhadd2 (f : Syl) (s : State) : Out State :=
  vecOp (.vhadd2 f) f 1 false (fun w s l => low32 (halves2 ((if f.op64 then fpSub else fpAdd) (fpEnv s w) fp16) (srcA w s f l) (srcB w s f l))) s

/-- VHMUL2 (R116). -/
def execVhmul2 (f : Syl) (s : State) : Out State :=
  vecOp (.vhmul2 f) f 1 false (fun w s l => low32 (halves2 (fpMul (fpEnv s w) fp16) (srcA w s f l) (srcB w s f l))) s

/-- VHFMA2 (R116). -/
def execVhfma2 (f : Syl) (s : State) : Out State :=
  vecOp (.vhfma2 f) f 1 false (fun w s l => low32 (halves3 (fpFma (fpEnv s w) fp16) (srcA w s f l) (srcB w s f l) (srcC w s f l))) s

/-- VBFMA2 (R116). -/
def execVbfma2 (f : Syl) (s : State) : Out State :=
  vecOp (.vbfma2 f) f 1 false (fun w s l => low32 (halves3 (fpFma (fpEnv s w) bf16) (srcA w s f l) (srcB w s f l) (srcC w s f l))) s

/-! ### Conversions (R117, R118) -/

/-- The bits that VCVT reads: element 0 of A, or the pair of an FP64 source. -/
def cvtSource (w : Warp) (s : State) (f : Syl) (l : Nat) : Nat :=
  let a := fmtField w.r.fmt 0
  if a = 7 then (srcA64 w s f l).toNat else (srcA w s f l).toNat % 2 ^ fmtWidth a

/-- VCVT (R117): class VD and a pair when OFMT is FP64. -/
def execVcvt (f : Syl) (s : State) : Out State :=
  runSyl (.vcvt f) s fun w s =>
    let o := fmtField w.r.fmt 8
    let v := fpEnv s w
    match shapeAt (.vcvt f) w.r.fmt with
    | none => s
    | some h => s.vecResult w h f (if o = 7 then 2 else 1) (o == 7) fun l =>
        low32n (convert (fmtField w.r.fmt 0) o v.mode (w.r.fmt.getLsbD 14) v.ovt (cvtSource w s f l))

/-- VPACK (R118). -/
def execVpack (f : Syl) (s : State) : Out State :=
  vecOp (.vpack f) f 1 false (fun w s l => low32 (packLane (packWidth f.m.toNat) f.e.toNat (srcA w s f l) (srcB w s f l))) s

/-- VUNPK (R118). -/
def execVunpk (f : Syl) (s : State) : Out State :=
  vecOp (.vunpk f) f 1 false (fun w s l => low32 (unpackLane f.op64 (packWidth f.m.toNat) f.e.toNat (srcA w s f l))) s

/-! ### Special functions (R119, R120) -/

/-- A special function on an FP32 source. -/
def sfLane (op : Nat) (alt : Bool) (w : Warp) (s : State) (f : Syl) (l : Nat) : DWord :=
  let v := fpEnv s w
  low32n (specialFn op alt v.mode (ovtEntry v.ovt 0) (srcA w s f l).toNat)

/-- VRCP (R119, R120). -/
def execVrcp (f : Syl) (s : State) : Out State :=
  vecOp (.vrcp f) f 3 false (fun w s l => sfLane 0x48 false w s f l) s

/-- VRSQ (R119, R120). -/
def execVrsq (f : Syl) (s : State) : Out State :=
  vecOp (.vrsq f) f 3 false (fun w s l => sfLane 0x49 false w s f l) s

/-- VSQRT (R119, R120). -/
def execVsqrt (f : Syl) (s : State) : Out State :=
  vecOp (.vsqrt f) f 3 false (fun w s l => sfLane 0x4A false w s f l) s

/-- VEXP2 (R119, R120). -/
def execVexp2 (f : Syl) (s : State) : Out State :=
  vecOp (.vexp2 f) f 3 false (fun w s l => sfLane 0x4B false w s f l) s

/-- VLOG2 (R119, R120). -/
def execVlog2 (f : Syl) (s : State) : Out State :=
  vecOp (.vlog2 f) f 3 false (fun w s l => sfLane 0x4C false w s f l) s

/-- VSIN (R119, R120). -/
def execVsin (f : Syl) (s : State) : Out State :=
  vecOp (.vsin f) f 3 false (fun w s l => sfLane 0x4D f.op64 w s f l) s

/-- VTANH (R119, R120). -/
def execVtanh (f : Syl) (s : State) : Out State :=
  vecOp (.vtanh f) f 3 false (fun w s l => sfLane 0x4E false w s f l) s

/-! ### Lane operations (R121 to R125) -/

/-- VSHFL (R121). -/
def execVshfl (f : Syl) (s : State) : Out State :=
  vecOp (.vshfl f) f 0 false (fun w s l => low32 (srcA w s f (shflLane f.m.toNat (srcB w s f l) l))) s

/-- The value of A that a reduction combines: 64 bits for type 3 (R122). -/
def redSource (w : Warp) (s : State) (f : Syl) (l : Nat) : Nat :=
  if f.e.toNat % 4 = 3 then (srcA64 w s f l).toNat else (srcA w s f l).toNat

/-- VRED (R122): an S destination is written whenever the bundle issues, and its latch in all lanes. (log 72, DEDUCED) -/
def execVred (f : Syl) (s : State) : Out State :=
  runSyl (.vred f) s fun w s =>
    let act := w.r.active f.g1 f.g2
    let op := f.m.toNat
    let ty := f.e.toNat % 4
    let r := low32n ((treeReduce (redOp (fpEnv s w) op ty) act (redOperand op ty ∘ redSource w s f)).getD (redIdentity op ty))
    let cls := vectorClass (.vred f) w.r.fmt
    if isS f.d.toNat then s.pushVec f.d.toNat cls (ty == 3) (laneBit 0) allLanes fun _ => r
    else if act = 0 then s
    else s.pushVec f.d.toNat cls (ty == 3) act act fun _ => r

/-- VSCAN (R123). -/
def execVscan (f : Syl) (s : State) : Out State :=
  runSyl (.vscan f) s fun w s =>
    let act := w.r.active f.g1 f.g2
    let op := f.m.toNat
    let ty := f.e.toNat % 4
    let inc := scanAll (redOp (fpEnv s w) op ty) act (redOperand op ty ∘ redSource w s f)
    if act = 0 then s
    else s.pushVec f.d.toNat (vectorClass (.vscan f) w.r.fmt) (ty == 3) act act fun l =>
      low32n (scanLane op ty (f.e.getLsbD 2) act inc l)

/-- VBALLOT (R124): an S pair receives the mask whenever the bundle issues, and `%va` in all lanes. (log 72, DEDUCED) -/
def execVballot (f : Syl) (s : State) : Out State :=
  runSyl (.vballot f) s fun w s =>
    let act := w.r.active f.g1 f.g2
    let m := act &&& w.r.readP f.a.toNat
    if isS f.d.toNat then s.pushVec f.d.toNat 0 true (laneBit 0) allLanes fun _ => m
    else if act = 0 then s
    else s.pushVec f.d.toNat 0 true act act fun _ => m

/-- The active lanes whose source equals lane l's (R125). -/
def matchMask (w : Warp) (s : State) (f : Syl) (act : Lanes) (l : Nat) : Lanes :=
  act &&& maskOf fun j =>
    if f.op64 then srcA64 w s f j == srcA64 w s f l else srcA w s f j == srcA w s f l

/-- VMATCH (R125). -/
def execVmatch (f : Syl) (s : State) : Out State :=
  vecOp (.vmatch f) f 0 true (fun w s l => matchMask w s f (w.r.active f.g1 f.g2) l) s

/-! ### Votes and predicates (R126 to R128) -/

/-- VOTE (R126). -/
def execVote (f : Syl) (s : State) : Out State :=
  predOp (.vote f) f 0 (fun w _ _ =>
    let act := w.r.active f.g1 f.g2
    voteCond f.m.toNat f.e.toNat (laneCount (act &&& w.r.readP f.a.toNat)) (laneCount act)) s

/-- VPLOG (R127). -/
def execVplog (f : Syl) (s : State) : Out State :=
  predOp (.vplog f) f 0 (fun w _ l =>
    plogBit f.e ((w.r.readP f.a.toNat).getLsbD l) ((w.r.readP f.b.toNat).getLsbD l) ((w.r.readP f.c.toNat).getLsbD l)) s

/-- The seven predicates of a lane as a word. -/
def predWord (w : Warp) (l : Nat) : Nat :=
  (List.range 7).foldl (fun n i => if (w.r.readP i).getLsbD l then n + 2 ^ i else n) 0

/-- VPMOV (R128). -/
def execVpmov (f : Syl) (s : State) : Out State :=
  runSyl (.vpmov f) s fun w s =>
    let act := w.r.active f.g1 f.g2
    if act = 0 then s
    else if f.op64 then
      (List.range 7).foldl (fun s i => s.pushPred i 0 act (act &&& maskOf fun l => (srcA w s f l).getLsbD i)) s
    else s.pushVec f.d.toNat 0 false act act fun l => low32n (predWord w l)

end Sys2Proof.Machine
end

