-- ==== Sys2Proof/Machine/Dispatch.lean ====
section
/-! DEFINITION. The meaning of every row of the operation table. -/

namespace Sys2Proof.Machine

def exec (i : Instr) (s : State) : Host.Outcome State Fault Refusal :=
  match i with
  | .vnop f => Sys2Proof.Machine.execVnop f s
  | .vadd f => Sys2Proof.Machine.execVadd f s
  | .vsub f => Sys2Proof.Machine.execVsub f s
  | .vaddc f => Sys2Proof.Machine.execVaddc f s
  | .vmul f => Sys2Proof.Machine.execVmul f s
  | .vmulh f => Sys2Proof.Machine.execVmulh f s
  | .vmulw f => Sys2Proof.Machine.execVmulw f s
  | .vmad f => Sys2Proof.Machine.execVmad f s
  | .vmin f => Sys2Proof.Machine.execVmin f s
  | .vmax f => Sys2Proof.Machine.execVmax f s
  | .vabsd f => Sys2Proof.Machine.execVabsd f s
  | .vclamp f => Sys2Proof.Machine.execVclamp f s
  | .vand f => Sys2Proof.Machine.execVand f s
  | .vor f => Sys2Proof.Machine.execVor f s
  | .vxor f => Sys2Proof.Machine.execVxor f s
  | .vandn f => Sys2Proof.Machine.execVandn f s
  | .vshl f => Sys2Proof.Machine.execVshl f s
  | .vshr f => Sys2Proof.Machine.execVshr f s
  | .vbfe f => Sys2Proof.Machine.execVbfe f s
  | .vbfi f => Sys2Proof.Machine.execVbfi f s
  | .vpopc f => Sys2Proof.Machine.execVpopc f s
  | .vclz f => Sys2Proof.Machine.execVclz f s
  | .vbrev f => Sys2Proof.Machine.execVbrev f s
  | .vsel f => Sys2Proof.Machine.execVsel f s
  | .vcmp f => Sys2Proof.Machine.execVcmp f s
  | .vmov f => Sys2Proof.Machine.execVmov f s
  | .vperm f => Sys2Proof.Machine.execVperm f s
  | .vreq f => Sys2Proof.Machine.execVreq f s
  | .vfadd f => Sys2Proof.Machine.execVfadd f s
  | .vfsub f => Sys2Proof.Machine.execVfsub f s
  | .vfmul f => Sys2Proof.Machine.execVfmul f s
  | .vfma f => Sys2Proof.Machine.execVfma f s
  | .vfmin f => Sys2Proof.Machine.execVfmin f s
  | .vfmax f => Sys2Proof.Machine.execVfmax f s
  | .vfcmp f => Sys2Proof.Machine.execVfcmp f s
  | .vfclass f => Sys2Proof.Machine.execVfclass f s
  | .vfrnd f => Sys2Proof.Machine.execVfrnd f s
  | .vdadd f => Sys2Proof.Machine.execVdadd f s
  | .vdmul f => Sys2Proof.Machine.execVdmul f s
  | .vdfma f => Sys2Proof.Machine.execVdfma f s
  | .vdmin f => Sys2Proof.Machine.execVdmin f s
  | .vdmax f => Sys2Proof.Machine.execVdmax f s
  | .vdcmp f => Sys2Proof.Machine.execVdcmp f s
  | .vhadd2 f => Sys2Proof.Machine.execVhadd2 f s
  | .vhmul2 f => Sys2Proof.Machine.execVhmul2 f s
  | .vhfma2 f => Sys2Proof.Machine.execVhfma2 f s
  | .vbfma2 f => Sys2Proof.Machine.execVbfma2 f s
  | .vcvt f => Sys2Proof.Machine.execVcvt f s
  | .vpack f => Sys2Proof.Machine.execVpack f s
  | .vunpk f => Sys2Proof.Machine.execVunpk f s
  | .vrcp f => Sys2Proof.Machine.execVrcp f s
  | .vrsq f => Sys2Proof.Machine.execVrsq f s
  | .vsqrt f => Sys2Proof.Machine.execVsqrt f s
  | .vexp2 f => Sys2Proof.Machine.execVexp2 f s
  | .vlog2 f => Sys2Proof.Machine.execVlog2 f s
  | .vsin f => Sys2Proof.Machine.execVsin f s
  | .vtanh f => Sys2Proof.Machine.execVtanh f s
  | .vshfl f => Sys2Proof.Machine.execVshfl f s
  | .vred f => Sys2Proof.Machine.execVred f s
  | .vscan f => Sys2Proof.Machine.execVscan f s
  | .vballot f => Sys2Proof.Machine.execVballot f s
  | .vmatch f => Sys2Proof.Machine.execVmatch f s
  | .vote f => Sys2Proof.Machine.execVote f s
  | .vplog f => Sys2Proof.Machine.execVplog f s
  | .vpmov f => Sys2Proof.Machine.execVpmov f s
  | .mnop f => Sys2Proof.Machine.execMnop f s
  | .ldg f => Sys2Proof.Machine.execLdg f s
  | .stg f => Sys2Proof.Machine.execStg f s
  | .lds f => Sys2Proof.Machine.execLds f s
  | .sts f => Sys2Proof.Machine.execSts f s
  | .ldc f => Sys2Proof.Machine.execLdc f s
  | .ldacq f => Sys2Proof.Machine.execLdacq f s
  | .strel f => Sys2Proof.Machine.execStrel f s
  | .atom f => Sys2Proof.Machine.execAtom f s
  | .atoms f => Sys2Proof.Machine.execAtoms f s
  | .red f => Sys2Proof.Machine.execRed f s
  | .fence f => Sys2Proof.Machine.execFence f s
  | .pref f => Sys2Proof.Machine.execPref f s
  | .halloc f => Sys2Proof.Machine.execHalloc f s
  | .hfree f => Sys2Proof.Machine.execHfree f s
  | .hqry f => Sys2Proof.Machine.execHqry f s
  | .rfence f => Sys2Proof.Machine.execRfence f s
  | .qpost f => Sys2Proof.Machine.execQpost f s
  | .qtake f => Sys2Proof.Machine.execQtake f s
  | .tlsig f => Sys2Proof.Machine.execTlsig f s
  | .icinv f => Sys2Proof.Machine.execIcinv f s
  | .ldl f => Sys2Proof.Machine.execLdl f s
  | .stl f => Sys2Proof.Machine.execStl f s
  | .enop f => Sys2Proof.Machine.execEnop f s
  | .cset f => Sys2Proof.Machine.execCset f s
  | .cgo f => Sys2Proof.Machine.execCgo f s
  | .cgath f => Sys2Proof.Machine.execCgath f s
  | .cscat f => Sys2Proof.Machine.execCscat f s
  | .cqry f => Sys2Proof.Machine.execCqry f s
  | .mma f => Sys2Proof.Machine.execMma f s
  | .mmas f => Sys2Proof.Machine.execMmas f s
  | .macq f => Sys2Proof.Machine.execMacq f s
  | .mrel f => Sys2Proof.Machine.execMrel f s
  | .mrd f => Sys2Proof.Machine.execMrd f s
  | .mwr f => Sys2Proof.Machine.execMwr f s
  | .mzero f => Sys2Proof.Machine.execMzero f s
  | .tset f => Sys2Proof.Machine.execTset f s
  | .trav f => Sys2Proof.Machine.execTrav f s
  | .tret f => Sys2Proof.Machine.execTret f s
  | .dpush f => Sys2Proof.Machine.execDpush f s
  | .dcut f => Sys2Proof.Machine.execDcut f s
  | .ddeal f => Sys2Proof.Machine.execDdeal f s
  | .ddepth f => Sys2Proof.Machine.execDdepth f s
  | .claim f => Sys2Proof.Machine.execClaim f s
  | .object f => Sys2Proof.Machine.execObject f s
  | .clread f => Sys2Proof.Machine.execClread f s
  | .clpoll f => Sys2Proof.Machine.execClpoll f s
  | .clgrp f => Sys2Proof.Machine.execClgrp f s
  | .nop f => Sys2Proof.Machine.execNop f s
  | .prep f => Sys2Proof.Machine.execPrep f s
  | .prepi f => Sys2Proof.Machine.execPrepi f s
  | .bra f => Sys2Proof.Machine.execBra f s
  | .brd f => Sys2Proof.Machine.execBrd f s
  | .jset f => Sys2Proof.Machine.execJset f s
  | .join f => Sys2Proof.Machine.execJoin f s
  | .call f => Sys2Proof.Machine.execCall f s
  | .ret f => Sys2Proof.Machine.execRet f s
  | .exit f => Sys2Proof.Machine.execExit f s
  | .bar f => Sys2Proof.Machine.execBar f s
  | .bara f => Sys2Proof.Machine.execBara f s
  | .waitf f => Sys2Proof.Machine.execWaitf f s
  | .yield f => Sys2Proof.Machine.execYield f s
  | .fork f => Sys2Proof.Machine.execFork f s
  | .sync f => Sys2Proof.Machine.execSync f s
  | .launch f => Sys2Proof.Machine.execLaunch f s
  | .tlwait f => Sys2Proof.Machine.execTlwait f s
  | .fmts f => Sys2Proof.Machine.execFmts f s
  | .grow f => Sys2Proof.Machine.execGrow f s
  | .shrink f => Sys2Proof.Machine.execShrink f s
  | .enter f => Sys2Proof.Machine.execEnter f s
  | .leave f => Sys2Proof.Machine.execLeave f s
  | .trap f => Sys2Proof.Machine.execTrap f s
  | .rft f => Sys2Proof.Machine.execRft f s
  | .ovtld f => Sys2Proof.Machine.execOvtld f s
  | .srd f => Sys2Proof.Machine.execSrd f s
  | .swr f => Sys2Proof.Machine.execSwr f s
  | .sleep f => Sys2Proof.Machine.execSleep f s
  | .bkpt f => Sys2Proof.Machine.execBkpt f s
  | .kend f => Sys2Proof.Machine.execKend f s
  | .resultDelivery op => Sys2Proof.Machine.execResultDelivery op s
  | .fenceComplete op => Sys2Proof.Machine.execFenceComplete op s
  | .pageWalk op lanes => Sys2Proof.Machine.execPageWalk op lanes s
  | .homeAccess op lanes answers writeBack => Sys2Proof.Machine.execHomeAccess op lanes answers writeBack s
  | .combine line => Sys2Proof.Machine.execCombine line s
  | .gatheredRedApply op lanes => Sys2Proof.Machine.execGatheredRedApply op lanes s
  | .uCopyEviction die line => Sys2Proof.Machine.execUCopyEviction die line s
  | .deferredFaultTrap warp => Sys2Proof.Machine.execDeferredFaultTrap warp s
  | .dataWatchMatch op => Sys2Proof.Machine.execDataWatchMatch op s
  | .starvationBound warp => Sys2Proof.Machine.execStarvationBound warp s
  | .groupRotation warp => Sys2Proof.Machine.execGroupRotation warp s
  | .timelineCounterUpdate pa => Sys2Proof.Machine.execTimelineCounterUpdate pa s
  | .tlwaitDeadline warp group => Sys2Proof.Machine.execTlwaitDeadline warp group s
  | .sleepWake warp group => Sys2Proof.Machine.execSleepWake warp group s
  | .copyQueueAccept op => Sys2Proof.Machine.execCopyQueueAccept op s
  | .copyChannelStart cluster => Sys2Proof.Machine.execCopyChannelStart cluster s
  | .copyComplete op answers => Sys2Proof.Machine.execCopyComplete op answers s
  | .matrixOpComplete op => Sys2Proof.Machine.execMatrixOpComplete op s
  | .tokenRelease sub tile => Sys2Proof.Machine.execTokenRelease sub tile s
  | .tsetTableLoaded op => Sys2Proof.Machine.execTsetTableLoaded op s
  | .traversalPop walk lane => Sys2Proof.Machine.execTraversalPop walk lane s
  | .deckSpill walk lane => Sys2Proof.Machine.execDeckSpill walk lane s
  | .routineCall walk => Sys2Proof.Machine.execRoutineCall walk s
  | .walkComplete walk => Sys2Proof.Machine.execWalkComplete walk s
  | .handleSpaceReturn old => Sys2Proof.Machine.execHandleSpaceReturn old s
  | .dealerDealTeam die => Sys2Proof.Machine.execDealerDealTeam die s
  | .dealerSteal die => Sys2Proof.Machine.execDealerSteal die s
  | .kittySteal cluster => Sys2Proof.Machine.execKittySteal cluster s
  | .taskStart cluster => Sys2Proof.Machine.execTaskStart cluster s
  | .warpSlotRelease warp => Sys2Proof.Machine.execWarpSlotRelease warp s
  | .teamComplete team => Sys2Proof.Machine.execTeamComplete team s
  | .stageSlotRestart team slot => Sys2Proof.Machine.execStageSlotRestart team slot s
  | .calendarTurn => Sys2Proof.Machine.execCalendarTurn s
  | .bucketRefill => Sys2Proof.Machine.execBucketRefill s
  | .permitRefill cluster => Sys2Proof.Machine.execPermitRefill cluster s
  | .droopStretch cluster => Sys2Proof.Machine.execDroopStretch cluster s
  | .fllStepDown cluster => Sys2Proof.Machine.execFllStepDown cluster s
  | .frequencyChange cluster code => Sys2Proof.Machine.execFrequencyChange cluster code s
  | .retentionEntry cluster => Sys2Proof.Machine.execRetentionEntry cluster s
  | .retentionExit cluster parityOk testOk => Sys2Proof.Machine.execRetentionExit cluster parityOk testOk s
  | .uncorrectedError kind place lanes => Sys2Proof.Machine.execUncorrectedError kind place lanes s
  | .selfTest kind place pass => Sys2Proof.Machine.execSelfTest kind place pass s
  | .claimArrival msg remote => Sys2Proof.Machine.execClaimArrival msg remote s
  | .inboxDelivery msg remote => Sys2Proof.Machine.execInboxDelivery msg remote s
  | .objectionArrival msg remote answer => Sys2Proof.Machine.execObjectionArrival msg remote answer s
  | .claimWindowEnd proposal => Sys2Proof.Machine.execClaimWindowEnd proposal s
  | .claimOutcome msg answer => Sys2Proof.Machine.execClaimOutcome msg answer s
  | .claimPlaneUnreachable device => Sys2Proof.Machine.execClaimPlaneUnreachable device s
  | .postedWriteSend write => Sys2Proof.Machine.execPostedWriteSend write s
  | .postedWriteReport write refused => Sys2Proof.Machine.execPostedWriteReport write refused s
  | .postedWriteLost write => Sys2Proof.Machine.execPostedWriteLost write s
  | .inboundPostedWrite tag pa bytes => Sys2Proof.Machine.execInboundPostedWrite tag pa bytes s
  | .inboundRead tag pa size => Sys2Proof.Machine.execInboundRead tag pa size s
  | .hostWrite pa bytes => Sys2Proof.Machine.execHostWrite pa bytes s
  | .hostRead tag pa size => Sys2Proof.Machine.execHostRead tag pa size s
  | .doorbellWrite value => Sys2Proof.Machine.execDoorbellWrite value s
  | .recoveryGo => Sys2Proof.Machine.execRecoveryGo s
  | .boot => Sys2Proof.Machine.execBoot s
  | .tlbinvWrite warp value => Sys2Proof.Machine.execTlbinvWrite warp value s
  | .pctlSave warp value => Sys2Proof.Machine.execPctlSave warp value s
  | .preemptSaveComplete team => Sys2Proof.Machine.execPreemptSaveComplete team s
  | .pctlRestore warp value => Sys2Proof.Machine.execPctlRestore warp value s
  | .hvcommitGo => Sys2Proof.Machine.execHvcommitGo s
  | .flushpaWrite value => Sys2Proof.Machine.execFlushpaWrite value s
  | .checkpointSave => Sys2Proof.Machine.execCheckpointSave s
  | .checkpointRestore => Sys2Proof.Machine.execCheckpointRestore s
  | .checkpointComplete errors => Sys2Proof.Machine.execCheckpointComplete errors s
  | .attestExtend value => Sys2Proof.Machine.execAttestExtend value s
  | .attestQuote value => Sys2Proof.Machine.execAttestQuote value s
  | .sketchEventWrite cluster which value => Sys2Proof.Machine.execSketchEventWrite cluster which value s
  | .sketchDump warp value => Sys2Proof.Machine.execSketchDump warp value s
  | .histogramClear sub => Sys2Proof.Machine.execHistogramClear sub s
  | .claimGroupDestroy part group => Sys2Proof.Machine.execClaimGroupDestroy part group s
  | .pmodeWrite value => Sys2Proof.Machine.execPmodeWrite value s
  | .sessionRemap warp value => Sys2Proof.Machine.execSessionRemap warp value s
  | .planeReachable device => Sys2Proof.Machine.execPlaneReachable device s
  | .inboundAtomic tag pa op size data cmp => Sys2Proof.Machine.execInboundAtomic tag pa op size data cmp s

end Sys2Proof.Machine
end

