-- ==== Sys2Proof/Machine/Step.lean ====
section
/-! DEFINITION. One step of the part: what the agenda holds, else what its warps do, else a step of its engines, else time
passes (log 6, DESIGN CHOICE). -/

namespace Sys2Proof.Machine

/-- A bundle issues: its four syllables run in slot order. -/
def runBundle (b : Bundle) (s : State) : Host.Outcome State Fault Refusal :=
  finishBundle (thenRun (thenRun (thenRun (exec b.v s) (exec b.m)) (exec b.e)) (exec b.c))

def step (s : State) : Host.Outcome State Fault Refusal :=
  match s.agenda with
  | i :: t => exec i { s with agenda := t }
  | [] =>
    match warpPlan s with
    | .done t => .next t
    | .event i => exec i s
    | .issue t b => runBundle b t
    | .idle =>
      match nextChoice s with
      | some i => thenRun (exec i s) fun t => .next (t.spend 256)
      | none => .next s.passTime

/-- The bundle `w` where the next step fetches: the table gives an instruction as a whole bundle, syllable k in bits
64k to 64k + 63, so the bits above nbits are those of the slots that it leaves to 0. (log 40, DESIGN CHOICE) -/
def State.withFetchWord (s : State) (nbits w : Nat) : State :=
  let t := { s.loaded with agenda := [] }
  match fetchWarp t with
  | some g => t.placeBundle g (w % 2 ^ nbits)
  | none => t

end Sys2Proof.Machine
end

