-- ==== Sys2Proof/Safety.lean ====
section
/-! DEFINITION. The terms of the claims: what a bundle that issues is, what a step answers, what it leaves alone, and the
invariant of a run. -/

namespace Sys2Proof.Machine

/-- The warp whose bundle is being issued, its checks passed. -/
def Issuing (s : State) (w : Warp) : Prop := s.curWarp = some w ∧ s.issue.checked = true

/-- That warp with its registers at its issue warp time. -/
def State.issuer (s : State) (w : Warp) : Warp := w.at s.issue.t

/-- The answer is a next state with a property. -/
def Answers (o : Out State) (P : State → Prop) : Prop := ∃ t, o = .next t ∧ P t

/-- The bytes at their homes once a partial result is applied there: value := value op partial (R249). -/
def withPartial (home : Nat → Byte) (e : Nat × Partial) (k : Nat) : Byte :=
  let at1 := copyPlace e.1
  let n := if e.2.wide then 8 else 4
  let old := bytesToNat ((List.range n).map fun i => home (at1 + i))
  if at1 ≤ k ∧ k < at1 + n then (natToBytes n (atomicNew e.2.fn (8 * n) old e.2.value.toNat 0)).getD (k - at1) 0 else home k

/-- Only the current warp's entry and the next identity differ: memory, every other warp, and every register of the device
stay. -/
def OnlyWarp (s t : State) (w : Warp) : Prop := t = { s with warps := tput s.warps s.cur w, nextId := t.nextId }

/-- Only results in flight are added to the issuing warp: its registers, flags, groups and status stay. -/
def OnlyFlight (s t : State) (w : Warp) (fl : List Result) : Prop :=
  OnlyWarp s t { s.issuer w with r := { (s.issuer w).r with flight := fl } }

/-- A result is in flight: where it goes, its lanes with their values, when it is written and when it is visible. -/
def InFlight (fl : List Result) (d : Dest) (lanes : Lanes) (vals : Nat → Word) (writeAt visAt : Nat) : Prop :=
  ∃ q ∈ fl, q.dest = d ∧ q.lanes = lanes ∧ (∀ l, lanes.getLsbD l → tget 0 q.vals l = vals l) ∧
    q.writeAt = writeAt ∧ q.visAt = visAt

/-- What was in flight stays, and what is added goes to the destinations named. -/
def Adds (old fl : List Result) (ds : List Dest) : Prop := (∀ q ∈ old, q ∈ fl) ∧ ∀ q ∈ fl, q ∈ old ∨ q.dest ∈ ds

/-- A result also goes to the latch of its class, in the lanes of the mask: the whole value in the 64-bit latch, else its low
word (R18). -/
def Latches (q : Result) (cls : Nat) (lanes : Lanes) (val : Nat → DWord) : Prop :=
  q.cls = cls ∧ q.latchLanes = lanes ∧ ∃ tab, q.latch = some tab ∧
    ∀ l, lanes.getLsbD l → tget 0 tab l = if cls = 2 then val l else (lowWord (val l)).zeroExtend 64

/-- When a result of class k issued now is written, and when a bundle first sees it (R17, R20). -/
def writeCycle (s : State) (w : Warp) (k : Nat) : Nat := s.issue.t + max (Config.nativeLatency k) (w.declared k) - 1
def seenCycle (s : State) (w : Warp) (k : Nat) : Nat := s.issue.t + w.declared k

/-- A vector result: one register, or a pair, of the operand code, in these lanes; the latch of its class takes it; nothing
else of the machine changes (R17, R18, R98 to R100). -/
def VecEffect (s t : State) (w : Warp) (code cls : Nat) (wide : Bool) (lanes latchLanes : Lanes) (val : Nat → DWord) : Prop :=
  ∃ fl, OnlyFlight s t w fl ∧
    Adds (s.issuer w).r.flight fl (destOf code 0 :: if wide then [destOf code 1] else []) ∧
    (∃ q ∈ fl, Latches q cls latchLanes val ∧ q.dest = destOf code 0 ∧ q.lanes = lanes ∧
      (∀ l, lanes.getLsbD l → tget 0 q.vals l = lowWord (val l)) ∧
      q.writeAt = writeCycle s w cls ∧ q.visAt = seenCycle s w cls) ∧
    (wide = true →
      InFlight fl (destOf code 1) lanes (fun l => highWord (val l)) (writeCycle s w cls) (seenCycle s w cls))

/-- The issue leaves the machine as it was, but that the warp's registers have come to the issue warp time. -/
def NoEffect (s : State) (w : Warp) (o : Out State) : Prop := o = .next (s.setWarp s.cur (s.issuer w))

/-- A vector instruction whose result in each lane is in the relation `val` to its sources. With no active lane it has no
effect. A scalar form acts once, in class VA, on the group's lowest lane, for every lane of the latch; any other form
writes each active lane. -/
def VecWrites (i : Instr) (f : Syl) (cls : Warp → Nat) (wide : Warp → Bool) (val : State → Warp → Nat → DWord → Prop) : Prop :=
  ∀ s w, Issuing s w →
    let x := s.issuer w
    let act := x.r.active f.g1 f.g2
    (act = 0 → NoEffect s w (exec i s)) ∧
    (act ≠ 0 → ∃ v : Nat → DWord, (∀ l, l < 64 → val s x l (v l)) ∧ Answers (exec i s) fun t =>
      if scalarVec i x.r.fmt then
        VecEffect s t w f.d.toNat 0 (wide x) (laneBit 0) allLanes fun _ => v (lowLane x.r.group.mask)
      else VecEffect s t w f.d.toNat (cls x) (wide x) act act v)

/-- A vector instruction that writes predicate D in its active lanes from a test, with the timing of its class and no latch
(R95). -/
def PredWrites (i : Instr) (f : Syl) (cls : Nat) (test : State → Warp → Nat → Prop) : Prop :=
  ∀ s w, Issuing s w →
    let x := s.issuer w
    let act := x.r.active f.g1 f.g2
    (act = 0 → NoEffect s w (exec i s)) ∧
    (act ≠ 0 → Answers (exec i s) fun t => ∃ fl, OnlyFlight s t w fl ∧ Adds x.r.flight fl [.p f.d.toNat] ∧
      ∃ q ∈ fl, q.dest = .p f.d.toNat ∧ q.lanes = act ∧ q.latch = none ∧
        (∀ l, act.getLsbD l → (tget 0 q.vals l = 1 ∧ test s x l) ∨ (tget 0 q.vals l = 0 ∧ ¬ test s x l)) ∧
        q.writeAt = writeCycle s w cls ∧ q.visAt = seenCycle s w cls)

/-- rnd of R69 into a format, under RMODE and the format's entry of OVT as the bundle reads them. -/
def rounded (s : State) (x : Warp) (f : FpFmt) (v : FVal) : Nat :=
  f.round (fpEnv s x).mode (ovtEntry (fpEnv s x).ovt (fpCode f)) v

/-- A value with the canonical NaN for every NaN (R70). -/
def noPayload (f : FpFmt) (v : Nat) : Nat := if (f.value v).isNan then f.nanBits else v

/-- What VRED gives by operation and type over a list of active lanes (R122): the integer sum modulo 2^32, the least or the
greatest value, or the bits that all, some or an odd number of them hold; a floating sum is that of the tree of R91, a least or
greatest floating value carries no payload of a NaN (R70). -/
def RedValue (e : FpEnv) (op ty : Nat) (lanes : List Nat) (a : Nat → Nat) (act : Lanes) (v : Nat) : Prop :=
  let real := fun n : Nat => if ty = 1 then (n : Int) else (BitVec.ofNat 32 n).toInt
  if lanes = [] then v = redIdentity op ty
  else if 2 ≤ ty then (op = 0 → some v = treeReduce (redOp e 0 ty) act a) ∧
    (op = 1 ∨ op = 2 → some v = treeReduce ((if ty = 3 then fp64 else fp32).minmax (op == 2)) act (noPayload (if ty = 3 then fp64 else fp32) ∘ a))
  else match op with
    | 0 => v = (lanes.map a).sum % 2 ^ 32
    | 1 => (∃ l ∈ lanes, v = a l) ∧ ∀ l ∈ lanes, real v ≤ real (a l)
    | 2 => (∃ l ∈ lanes, v = a l) ∧ ∀ l ∈ lanes, real (a l) ≤ real v
    | 3 => ∀ i, v.testBit i = lanes.all fun l => (a l).testBit i
    | 4 => ∀ i, v.testBit i = lanes.any fun l => (a l).testBit i
    | _ => ∀ i, v.testBit i = decide ((lanes.filter fun l => (a l).testBit i).length % 2 = 1)

/-- The lane whose sources a lane of an access reads (R132). -/
def accessLaneOf (x : Warp) (i : Instr) (l : Nat) : Nat := if perLaneMem i then l else lowLane x.r.group.mask

/-- The lanes that an access performs: every active one, or one for a scalar access (R132). -/
def accessLanes (_ : Warp) (i : Instr) (act : Lanes) : Lanes := if perLaneMem i then act else laneBit (lowLane act)

/-- The keys of the register-lanes of `words` registers from an operand code, in the lanes of a mask. -/
def namesKey (code words : Nat) (act : Lanes) (key : Nat) : Prop :=
  ∃ k, k < words ∧ ((code < 192 ∧ ∃ l, act.getLsbD l = true ∧ key = vKey (code + k) l) ∨
    (192 ≤ code ∧ code < 240 ∧ key = sKey (code - 192 + k)))

/-- The registers of an operand code await operation `id` in these lanes; every other register waits, or is full, as before,
and nothing else of the registers changes (R25, R139). -/
def Awaits (r r' : Regs) (id code words : Nat) (act : Lanes) : Prop :=
  r' = { r with pend := r'.pend } ∧ (∀ key, namesKey code words act key → r'.pending key = id + 1) ∧
    ∀ key, ¬ namesKey code words act key → r'.pending key = r.pending key

/-- The operations that hold later issue of a warp and are in flight (R138). -/
def heldStill (s : State) (w : Warp) : List Nat := w.holdOp.filter fun n => (tfind s.mops n).isSome || (tfind s.replies n).isSome

/-- A memory-slot instruction goes into flight as one operation: its destination awaits it, the warp counts it, and nothing
else of the machine changes (R137 to R139). -/
def Flies (s t : State) (w : Warp) (o : MemOp) (code words : Nat) (act : Lanes) (holds : Bool) : Prop :=
  ∃ r', Awaits (s.issuer w).r r' s.nextId code words act ∧
    t = { s with
      mops := tput s.mops s.nextId o, nextId := s.nextId + 1,
      warps := tput s.warps s.cur { s.issuer w with
        r := r', memSeq := w.memSeq + 1, holdOp := if holds then heldStill s w ++ [s.nextId] else w.holdOp } }

/-- An instruction that only counts as one of the memory slot. -/
def OnlyCounts (s : State) (w : Warp) (o : Out State) : Prop :=
  o = .next (s.setWarp s.cur { s.issuer w with memSeq := w.memSeq + 1 })

/-- What the issue of an access leaves: the state with the access in flight, or, where precise memory mode performs the access with its
bundle, what that performance makes of it (R346). -/
def Issues (s : State) (o : Out State) (P : State → Prop) : Prop :=
  ∃ u, P u ∧ o = .next (match s.issue.atOnce with
    | none => u
    | some base => u.accessNow s.nextId base)

/-- A register result to come from no access: a reply with its destination, lanes and values by word and lane, or by word for
one result of the warp; the registers await it. -/
def Replies (s t : State) (w : Warp) (code words : Nat) (one : Bool) (lanes : Lanes) (ready : Bool) (val : Nat → Nat → Word) :
    Prop :=
  ∃ id q, s.nextId ≤ id ∧ id < t.nextId ∧ tfind t.replies id = some q ∧ q.warp = s.cur ∧ q.dest = code ∧ q.count = words ∧
    q.lanes = lanes ∧ q.ready = ready ∧
    (∀ k l, k < words → lanes.getLsbD l → tget 0 q.vals (64 * k + (if one then 0 else l)) = val k l) ∧
    ∃ y, tfind t.warps s.cur = some y ∧ Awaits (s.issuer w).r y.r id code words lanes

/-- RESULT_DELIVERY has one subject: no deck operation and no deal bears the identity, and not both an access and a reply. -/
def OneSubject (s : State) (id : Nat) : Prop :=
  tfind s.pushes id = none ∧ tfind s.cuts id = none ∧ tfind s.deals id = none ∧ (tfind s.mops id = none ∨ tfind s.replies id = none)

/-- Lane l of an operation can be performed now by itself, with no error in what it receives. -/
def LaneGoes (s : State) (id l : Nat) (o : MemOp) : Prop :=
  tfind s.mops id = some o ∧ l < 64 ∧ (o.lanes &&& ~~~o.faulted).getLsbD l = true ∧ inheritedCause s id o l = none ∧
    laneReady s id o l = true ∧ poisoned s o l = none ∧ wholeAccess s o = false ∧ s.ckpt = none

/-- An operation whose lane l can be performed at its home now, at one named place outside the windows. -/
def AtHome (s : State) (id l : Nat) (o : MemOp) (key : Nat) : Prop :=
  LaneGoes s id l o ∧ o.spill = false ∧ tfind o.pa (4 * l) = some key ∧ key + o.size < 3 * 2 ^ 52 ∧ s.ucopy = []

/-- An access whose lane l can be performed now on its allocation, which holds q. -/
def AtTile (s : State) (id l : Nat) (o : MemOp) (w : Warp) (q : Handle) : Prop :=
  LaneGoes s id l o ∧ o.pa = [] ∧ tfind s.warps o.warp = some w ∧ findHandle s w.team o.handle = some q

/-- A virtual address whose page the cluster has in its TLB, dirty and open to an access: it names bytes outside the windows, and its
translation changes nothing. -/
def Resident (s : State) (o : MemOp) (acc : Acc) (va key : Nat) : Prop :=
  va < 2 ^ 56 ∧ key < 3 * 2 ^ 52 - 64 ∧ ∃ e, tlbFind s o.cluster o.ctx va = some e ∧
    leafDenies o.who acc e.2.2.2.1.toNat = none ∧ e.2.2.2.1.getLsbD 10 = true ∧
    leafPlace s acc e.2.2.1 e.2.2.2.1.toNat va = .ok key

/-- The new value of an atomic operation of n bits (R149, R151): the old value, the operand, and for `.cas` the comparand. -/
def atomicResult (fn n old c cmp : Nat) : Nat :=
  let real := fun v : Nat => if 2 ^ (n - 1) ≤ v then (v : Int) - 2 ^ n else v
  let f := if n = 64 then fp64 else fp32
  match fn with
  | 0 => (old + c) % 2 ^ n
  | 1 => if real old ≤ real c then old else c
  | 2 => if old ≤ c then old else c
  | 3 => if real c ≤ real old then old else c
  | 4 => if c ≤ old then old else c
  | 5 => old &&& c
  | 6 => old ||| c
  | 7 => old ^^^ c
  | 8 => c
  | 9 => if old = cmp then c else old
  | _ => f.round .rne 1 ((f.value old).add .rne (f.value c))

/-- The operand and the comparand of lane l of an atomic operation (R149). -/
def atomicOperands (o : MemOp) (l : Nat) : Nat × Nat :=
  let n := 8 * o.size
  let d := (tget 0 o.data l).toNat
  if o.fn = 9 then (d / 2 ^ n % 2 ^ n, d % 2 ^ n) else (d % 2 ^ n, 0)

/-! ### The control slot -/

/-- The state in which the control operation of the issuing warp acts: the bundle is over for its group. -/
def State.past (s : State) (w : Warp) : State := (s.setWarp s.cur (s.issuer w)).advance

/-- The control operation leaves a state with a property; what waits for the end of the bundle is taken then: TRAP #n, the stop
at a region edge, a single step (R227, R365, R366). -/
def Leaves (s : State) (w : Warp) (o : Out State) (P : State → Prop) : Prop :=
  ∃ u, o = .next (u.softTrap (s.issuer w)) ∧ P u

/-- The operation writes special registers; while precise memory mode keeps a checkpoint open, the newest notes how to undo it (R346). -/
def Rewrites (s : State) (w : Warp) (o : Out State) (P : State → Prop) : Prop :=
  ∃ y z, (s.past w).curWarp = some y ∧ z = { y with checkpoint := z.checkpoint } ∧
    (y.precise = false ∨ y.checkpoint = [] → z.checkpoint = y.checkpoint) ∧
    Leaves s w o fun u => u = { s.past w with sreg := u.sreg, warps := tput (s.past w).warps s.cur z } ∧ P u

/-- The operation starts a step of the part, which comes before whatever comes next, or waits for the newest open checkpoint (R346). -/
def Starts (s : State) (w : Warp) (o : Out State) (i : Instr) : Prop :=
  ∃ y, (s.past w).curWarp = some y ∧ Leaves s w o fun u =>
    (y.precise = false ∨ y.checkpoint = [] → u = { s.past w with agenda := i :: s.agenda, sreg := u.sreg }) ∧
    (y.precise = true → y.checkpoint ≠ [] → u.agenda = s.agenda ∧ u.mem = s.mem ∧
      ∃ z c, u.curWarp = some z ∧ z.checkpoint.getLast? = some c ∧ i ∈ c.later)

/-- The bundle ends and nothing else happens. -/
def OnlyPasses (s : State) (w : Warp) (o : Out State) : Prop := Leaves s w o fun u => u = s.past w

/-- The operation changes its own warp, from the first to the second, and the next identity, and nothing else. -/
def Changes (s : State) (w : Warp) (o : Out State) (P : Warp → Warp → Prop) : Prop :=
  ∃ y, (s.past w).curWarp = some y ∧ Leaves s w o fun u =>
    ∃ z, u = { s.past w with warps := tput (s.past w).warps s.cur z, nextId := u.nextId } ∧ P y z

/-- The current group of a warp waits. -/
def Warp.waiting (y : Warp) (x : Wait) : Warp :=
  { y with r := { y.r with groups := y.r.groups.set y.r.cur { y.r.group with wait := x } } }

/-- A register result of the control slot (R200): one register or a pair, written at the end of warp cycle t + 2. -/
def CtlResult (y z : Warp) (code words : Nat) (lanes : Lanes) (t : Nat) (val : Nat → DWord) : Prop :=
  ∃ fl, z = { y with r := { y.r with flight := fl } } ∧
    Adds y.r.flight fl (destOf code 0 :: if words = 2 then [destOf code 1] else []) ∧
    InFlight fl (destOf code 0) lanes (fun l => lowWord (val l)) (t + 2) (t + 3) ∧
    (words = 2 → InFlight fl (destOf code 1) lanes (fun l => highWord (val l)) (t + 2) (t + 3))

/-- The operations that act once for a group when a lane of it passes both guards, and EXIT (R199). -/
def guardedCtl (f : Ctl) : List Instr :=
  [.jset f, .join f, .exit f, .bar f, .bara f, .waitf f, .yield f, .fork f, .sync f, .launch f, .tlwait f, .fmts f, .grow f,
   .shrink f, .enter f, .leave f, .trap f, .rft f, .ovtld f, .srd f, .swr f, .sleep f, .kend f]

/-- A warp from before to after its bundle of a state: the group moves on 32 bytes; a pending transfer counts down or, after its
second delay bundle, splits the group by the addresses that its lanes reach. A split adds a warp cycle for each further address, for
a transfer that RFT has put back those of its own lanes only; the group counts its bundles until it splits (R13, R43, R204, R207,
R294, R340, R344). -/
def Moved (s : State) (x y : Warp) : Prop :=
  let next1 := fun p : DWord => (p + 32) &&& 0x00FFFFFFFFFFFFE0
  let pc := next1 s.issue.pc
  let due := s.issue.t + 1 + s.issue.gap
  let others := x.r.groups.map fun g => { g with last := false, soon := none }
  let becomes := fun gs => y.r.groups = (others.take x.r.cur ++ gs ++ others.drop (x.r.cur + 1)).filter Group.stays
  let goesOn := fun p => y.branch = 0 ∧ y.burst = x.burst + 1 ∧ y.r.due = due ∧ becomes [y.r.group] ∧
    y.r.group = { x.r.group with pc := pc, pending := p, paid := false, last := true, soon := none, ahead := y.r.group.ahead } ∧
    ∀ e ∈ y.r.group.ahead, e.1 = pc ∨ e.1 = next1 pc
  y = { x with r := { x.r with groups := y.r.groups, cur := y.r.cur, due := y.r.due, wtime := s.issue.t },
               burst := y.burst, branch := y.branch, yieldHint := s.issue.yield,
               loop := x.loop.map fun q => { q with closed := false } } ∧
  (x.r.group.mask ≠ 0 →
    match x.r.group.pending with
    | none => goesOn none
    | some q =>
      if 1 < q.left then goesOn (some { q with left := q.left - 1 })
      else
        let next := fun l => if q.lanes.getLsbD l then tget 0 q.target l &&& 0x00FFFFFFFFFFFFE0 else pc
        let reached := fun (m : Lanes) (p : Nat → DWord) => ((laneList m).map p).dedup.length
        let n := reached x.r.group.mask next
        let extra := (if q.restored then reached (x.r.group.mask &&& q.lanes) fun l => tget 0 q.target l else n) - 1
        y.branch = extra ∧ y.burst = (if extra = 0 then x.burst + 1 else 0) ∧ y.r.due = due + extra ∧
        y.r.group.mask.getLsbD (lowLane x.r.group.mask) = true ∧
        ∃ gs, gs.length = n ∧ becomes gs ∧
          (∀ g ∈ gs, g.wait = x.r.group.wait ∧ g.pending = none ∧ g.last = true ∧ g.paid = false ∧ g.soon = none ∧ g.ahead = [] ∧
            ∀ l, g.mask.getLsbD l = true → x.r.group.mask.getLsbD l = true ∧ g.pc = next l) ∧
          ∀ l, x.r.group.mask.getLsbD l = true → ∃ g ∈ gs, g.mask.getLsbD l = true)

/-- A field of n bytes at an offset of what is written to an area that is zero elsewhere. -/
def sparseField (t : Sparse) (off n : Nat) : Nat := bytesToNat ((List.range n).map fun k => tget 0 t (off + k))

/-- Every byte of memory reads at its home as before. -/
def SameBytes (s t : State) : Prop := ∀ k, t.homeByte k = s.homeByte k

/-- Memory is in its canonical form. -/
def State.Inv (s : State) : Prop := Memory.wf s.mem = true

end Sys2Proof.Machine
end

