-- ==== Sys2Proof/Certificates/Slice0/Obligations.lean ====
section
/-! DEFINITION. The statements about the model, from the rules of the spec. A statement of an instruction speaks of the issuing
warp's bundle and of every form of the instruction; what it does not name stays. -/

open Sys2Proof Sys2Proof.Machine

/-! ### The vector slot -/

/-- VADD, VSUB, VMUL, VMULH, VMULW, VMAD, VMIN, VMAX, VABSD, VCLAMP (R104): exact arithmetic on the 64-bit values of A,
B and C, of which the assignment keeps the low bits. VADDC (R104): the 33-bit sum of A, B and the carry of Pc; its low
32 bits go to D and its carry-out to the same Pc, at the same write cycle. A scalar form adds once, on the values of the
group's lowest lane and the carry of the lowest active lane, and writes the carry-out in every active lane (R99). That a
result to `%zero` enters the latch of its class is log 74 (the model's inference). -/
def Obligations.IntegerArithmetic : Prop :=
  (∀ f : Syl,
  VecWrites (.vadd f) f (fun _ => 0) (fun _ => false) (fun s x l v =>
    v.toNat = ((srcA x s f l).toNat + (srcB x s f l).toNat) % 2 ^ 32) ∧
  VecWrites (.vsub f) f (fun _ => 0) (fun _ => false) (fun s x l v =>
    (v.toNat : Int) = ((srcA x s f l).toInt - (srcB x s f l).toInt) % 2 ^ 32) ∧
  VecWrites (.vmul f) f (fun _ => 0) (fun _ => false) (fun s x l v =>
    v.toNat = (srcA x s f l).toNat * (srcB x s f l).toNat % 2 ^ 32) ∧
  VecWrites (.vmulh f) f (fun _ => 0) (fun _ => false) (fun s x l v =>
    (v.toNat : Int) = sxInt f.op64 (srcA x s f l) * sxInt f.op64 (srcB x s f l) / 2 ^ 32 % 2 ^ 32) ∧
  VecWrites (.vmulw f) f (fun _ => 0) (fun _ => true) (fun s x l v =>
    (v.toNat : Int) = sxInt f.op64 (srcA x s f l) * sxInt f.op64 (srcB x s f l) % 2 ^ 64) ∧
  VecWrites (.vmad f) f (fun _ => 0) (fun _ => false) (fun s x l v =>
    v.toNat = ((srcA x s f l).toNat * (srcB x s f l).toNat + (srcC x s f l).toNat) % 2 ^ 32) ∧
  VecWrites (.vmin f) f (fun _ => 0) (fun _ => false) (fun s x l v =>
    v = low32 (if sxInt f.op64 (srcA x s f l) ≤ sxInt f.op64 (srcB x s f l) then srcA x s f l else srcB x s f l)) ∧
  VecWrites (.vmax f) f (fun _ => 0) (fun _ => false) (fun s x l v =>
    v = low32 (if sxInt f.op64 (srcB x s f l) ≤ sxInt f.op64 (srcA x s f l) then srcA x s f l else srcB x s f l)) ∧
  VecWrites (.vabsd f) f (fun _ => 0) (fun _ => false) (fun s x l v =>
    v.toNat = (sxInt f.op64 (srcA x s f l) - sxInt f.op64 (srcB x s f l)).natAbs) ∧
  VecWrites (.vclamp f) f (fun _ => 0) (fun _ => false) (fun s x l v =>
    ∃ t : Word, (t = if sxInt f.op64 (srcB x s f l) ≤ sxInt f.op64 (srcA x s f l) then srcA x s f l else srcB x s f l) ∧
      v = low32 (if sxInt f.op64 t ≤ sxInt f.op64 (srcC x s f l) then t else srcC x s f l))) ∧
  (∀ f s w, Issuing s w →
  let x := s.issuer w
  let act := x.r.active f.g1 f.g2
  let sc := scalarVec (.vaddc f) x.r.fmt
  let total := fun l : Nat =>
    let q := if sc then lowLane x.r.group.mask else l
    let c := if sc then lowLane act else l
    (srcA x s f q).toNat + (srcB x s f q).toNat + (if (x.r.readP f.c.toNat).getLsbD c then 1 else 0)
  (act = 0 → NoEffect s w (exec (.vaddc f) s)) ∧
  (act ≠ 0 → Answers (exec (.vaddc f) s) fun t => ∃ fl, OnlyFlight s t w fl ∧
    Adds x.r.flight fl [destOf f.d.toNat 0, .p f.c.toNat] ∧
    InFlight fl (destOf f.d.toNat 0) (if sc then laneBit 0 else act)
      (fun l => BitVec.ofNat 32 (total l)) (writeCycle s w 0) (seenCycle s w 0) ∧
    InFlight fl (.p f.c.toNat) act (fun l => if 2 ^ 32 ≤ total l then 1 else 0) (writeCycle s w 0) (seenCycle s w 0)))

/-- VAND, VOR, VXOR, VANDN, VSHL, VSHR, VPOPC, VCLZ, VBREV (R105). A shift count is the whole value of B. That a result
to `%zero` enters the latch of its class is log 74 (the model's inference). -/
def Obligations.LogicAndShifts : Prop := ∀ f : Syl,
  VecWrites (.vand f) f (fun _ => 0) (fun _ => false) (fun s x l v =>
    ∀ i, v.getLsbD i = ((srcA x s f l).getLsbD i && (srcB x s f l).getLsbD i)) ∧
  VecWrites (.vor f) f (fun _ => 0) (fun _ => false) (fun s x l v =>
    ∀ i, v.getLsbD i = ((srcA x s f l).getLsbD i || (srcB x s f l).getLsbD i)) ∧
  VecWrites (.vxor f) f (fun _ => 0) (fun _ => false) (fun s x l v =>
    ∀ i, v.getLsbD i = ((srcA x s f l).getLsbD i ^^ (srcB x s f l).getLsbD i)) ∧
  VecWrites (.vandn f) f (fun _ => 0) (fun _ => false) (fun s x l v =>
    ∀ i, v.getLsbD i = ((srcA x s f l).getLsbD i && !(srcB x s f l).getLsbD i)) ∧
  VecWrites (.vshl f) f (fun _ => 0) (fun _ => false) (fun s x l v =>
    v.toNat = if 32 ≤ (srcB x s f l).toNat then 0 else (srcA x s f l).toNat * 2 ^ (srcB x s f l).toNat % 2 ^ 32) ∧
  VecWrites (.vshr f) f (fun _ => 0) (fun _ => false) (fun s x l v =>
    (v.toNat : Int) = sxInt f.op64 (srcA x s f l) / 2 ^ min (srcB x s f l).toNat 32 % 2 ^ 32) ∧
  VecWrites (.vpopc f) f (fun _ => 0) (fun _ => false) (fun s x l v =>
    v.toNat = ((List.range 32).filter fun i => (srcA x s f l).getLsbD i).length) ∧
  VecWrites (.vclz f) f (fun _ => 0) (fun _ => false) (fun s x l v =>
    v.toNat ≤ 32 ∧ (∀ i, 32 - v.toNat ≤ i → (srcA x s f l).getLsbD i = false) ∧
      (v.toNat < 32 → (srcA x s f l).getLsbD (31 - v.toNat) = true)) ∧
  VecWrites (.vbrev f) f (fun _ => 0) (fun _ => false) (fun s x l v =>
    ∀ i, v.getLsbD i = (decide (i < 32) && (srcA x s f l).getLsbD (31 - i)))

/-- VBFE and VBFI on the field that a descriptor names (R106), and VPERM's bytes (R107). That a result to `%zero` enters
the latch of its class is log 74 (the model's inference). -/
def Obligations.BitFields : Prop := ∀ f : Syl,
  VecWrites (.vbfe f) f (fun _ => 0) (fun _ => false) (fun s x l v =>
    let pos := (srcB x s f l).toNat % 32
    let w := min ((srcB x s f l).toNat / 256 % 64) 32
    let g := sxInt f.op64 (srcA x s f l) / 2 ^ pos % 2 ^ w
    (v.toNat : Int) = (if w = 0 then 0 else if f.op64 = false ∧ 2 ^ (w - 1) ≤ g then g - 2 ^ w else g) % 2 ^ 32) ∧
  VecWrites (.vbfi f) f (fun _ => 0) (fun _ => false) (fun s x l v =>
    let pos := (srcC x s f l).toNat % 32
    let w := min ((srcC x s f l).toNat / 256 % 64) 32
    ∀ i, v.getLsbD i = (decide (i < 32) &&
      if pos ≤ i ∧ i < pos + w then (srcB x s f l).getLsbD (i - pos) else (srcA x s f l).getLsbD i)) ∧
  VecWrites (.vperm f) f (fun _ => 0) (fun _ => false) (fun s x l v =>
    let b := (srcB x s f l).toNat
    v.toNat < 2 ^ 32 ∧ ∀ i, i < 4 → v.toNat / 2 ^ (8 * i) % 256 =
      (let k := b / 2 ^ (3 * i) % 8
       let p := if k < 4 then (srcA x s f l).toNat / 2 ^ (8 * k) % 256 else (srcC x s f l).toNat / 2 ^ (8 * (k - 4)) % 256
       let q := if b / 2 ^ (12 + i) % 2 = 1 then 255 - p else p
       if b / 2 ^ (16 + i) % 2 = 1 then 0 else q))

/-- VMOV of a register or a pair, and VSEL by Pc in each lane (R108). VREQ (R110): t, q and y are exact, and y saturates
to 8 or to 4 bits. That a result to `%zero` enters the latch of its class is log 74 (the model's inference). -/
def Obligations.MovesAndRequantise : Prop :=
  (∀ f : Syl,
  VecWrites (.vmov f) f (fun _ => 0) (fun _ => f.op64) (fun s x l v =>
    v = if f.op64 then srcA64 x s f l else low32 (srcA x s f l)) ∧
  VecWrites (.vsel f) f (fun _ => 0) (fun _ => false) (fun s x l v =>
    v = low32 (if (x.r.readP f.c.toNat).getLsbD l then srcA x s f l else srcB x s f l))) ∧
  (∀ f : Syl,
  VecWrites (.vreq f) f (fun _ => 0) (fun _ => false) (fun s x l v =>
    let n := f.e.toNat % 32
    ∃ t q y : Int, t = ((srcA x s f l).toInt * (srcB x s f l).toInt + 2 ^ 30) / 2 ^ 31 ∧
      (q = if n = 0 then t else (t + 2 ^ (n - 1)) / 2 ^ n) ∧ y = q + (srcC x s f l).toInt ∧
      (lowWord v).toInt = if f.op64 then max (-8) (min 7 y) else max (-128) (min 127 y)))

/-- VCMP (R109), VFCMP and VDCMP (R114): the condition of each active lane. A condition on a NaN is false, but for `.ne`
and `.uno`. -/
def Obligations.Compares : Prop := ∀ f : Syl,
  let real := fun (c : Nat) (a b : FVal) =>
    let nan := a.isNan || b.isNan
    match c with
    | 0 => !nan && a.eq b
    | 1 => nan || !a.eq b
    | 2 => !nan && a.lt false b
    | 3 => !nan && (a.lt false b || a.eq b)
    | 4 => !nan && b.lt false a
    | 5 => !nan && (b.lt false a || a.eq b)
    | 6 => !nan
    | _ => nan
  PredWrites (.vcmp f) f 0 (fun s x l =>
    let a := sxInt (f.e.getLsbD 0) (srcA x s f l)
    let b := sxInt (f.e.getLsbD 0) (srcB x s f l)
    match f.m.toNat with
    | 0 => a = b
    | 1 => a ≠ b
    | 2 => a < b
    | 3 => a ≤ b
    | 4 => a > b
    | _ => a ≥ b) ∧
  PredWrites (.vfcmp f) f 1 (fun s x l =>
    real f.m.toNat (fp32.value (srcA x s f l).toNat) (fp32.value (srcB x s f l).toNat) = true) ∧
  PredWrites (.vdcmp f) f 2 (fun s x l =>
    real f.m.toNat (fp64.value (srcA64 x s f l).toNat) (fp64.value (srcB64 x s f l).toNat) = true)

/-- VFADD, VFSUB, VFMUL, VFMA, VFMIN, VFMAX, VFCLASS and VFRND (R71, R111 to R113): one rounding of the exact result.
VDADD with `.sub`, VDMUL, VDFMA, VDMIN, VDMAX (R115), on pairs in class VD. That a result to `%zero` enters the latch of
its class is log 74 (the model's inference). -/
def Obligations.SingleAndDouble : Prop :=
  (∀ f : Syl,
  let m := fun (s : State) (x : Warp) => (fpEnv s x).mode
  let a := fun (s : State) (x : Warp) l => fp32.value (srcA x s f l).toNat
  let b := fun (s : State) (x : Warp) l => fp32.value (srcB x s f l).toNat
  let c := fun (s : State) (x : Warp) l => fp32.value (srcC x s f l).toNat
  VecWrites (.vfadd f) f (fun _ => 1) (fun _ => false) (fun s x l v =>
    v = low32n (rounded s x fp32 ((a s x l).add (m s x) (b s x l)))) ∧
  VecWrites (.vfsub f) f (fun _ => 1) (fun _ => false) (fun s x l v =>
    v = low32n (rounded s x fp32 ((a s x l).add (m s x) (b s x l).neg))) ∧
  VecWrites (.vfmul f) f (fun _ => 1) (fun _ => false) (fun s x l v =>
    v = low32n (rounded s x fp32 ((a s x l).mul (b s x l)))) ∧
  VecWrites (.vfma f) f (fun _ => 1) (fun _ => false) (fun s x l v =>
    v = low32n (rounded s x fp32 (((a s x l).mul (b s x l)).add (m s x) (c s x l)))) ∧
  VecWrites (.vfmin f) f (fun _ => 1) (fun _ => false) (fun s x l v =>
    v = low32n (fp32.minmax false (srcA x s f l).toNat (srcB x s f l).toNat)) ∧
  VecWrites (.vfmax f) f (fun _ => 1) (fun _ => false) (fun s x l v =>
    v = low32n (fp32.minmax true (srcA x s f l).toNat (srcB x s f l).toNat)) ∧
  VecWrites (.vfclass f) f (fun _ => 1) (fun _ => false) (fun s x l v =>
    v = low32n (match a s x l with
      | .nan => if (srcA x s f l).getLsbD 22 then 512 else 256
      | .inf neg => if neg then 1 else 128
      | .fin neg n _ =>
        if n = 0 then (if neg then 8 else 16)
        else if n < 2 ^ 23 then (if neg then 4 else 32) else if neg then 2 else 64)) ∧
  VecWrites (.vfrnd f) f (fun _ => 1) (fun _ => false) (fun s x l v =>
    v = low32n (match a s x l with
      | .nan => fp32.nanBits
      | .inf neg => fp32.signBit neg + fp32.infBits
      | .fin neg n e => rounded s x fp32 (.fin neg (roundAt (frndMode (fpEnv s x) f.m.toNat) neg n e 0) 0)))) ∧
  (∀ f : Syl,
  let m := fun (s : State) (x : Warp) => (fpEnv s x).mode
  let a := fun (s : State) (x : Warp) l => fp64.value (srcA64 x s f l).toNat
  let b := fun (s : State) (x : Warp) l => fp64.value (srcB64 x s f l).toNat
  let c := fun (s : State) (x : Warp) l => fp64.value (srcC64 x s f l).toNat
  VecWrites (.vdadd f) f (fun _ => 2) (fun _ => true) (fun s x l v =>
    v = low32n (rounded s x fp64 ((a s x l).add (m s x) (if f.op64 then (b s x l).neg else b s x l)))) ∧
  VecWrites (.vdmul f) f (fun _ => 2) (fun _ => true) (fun s x l v =>
    v = low32n (rounded s x fp64 ((a s x l).mul (b s x l)))) ∧
  VecWrites (.vdfma f) f (fun _ => 2) (fun _ => true) (fun s x l v =>
    v = low32n (rounded s x fp64 (((a s x l).mul (b s x l)).add (m s x) (c s x l)))) ∧
  VecWrites (.vdmin f) f (fun _ => 2) (fun _ => true) (fun s x l v =>
    v = low32n (fp64.minmax false (srcA64 x s f l).toNat (srcB64 x s f l).toNat)) ∧
  VecWrites (.vdmax f) f (fun _ => 2) (fun _ => true) (fun s x l v =>
    v = low32n (fp64.minmax true (srcA64 x s f l).toNat (srcB64 x s f l).toNat)))

/-- VHADD2 with `.sub`, VHMUL2, VHFMA2 and VBFMA2 (R116): the two 16-bit halves of a word apart. That a result to
`%zero` enters the latch of its class is log 74 (the model's inference). -/
def Obligations.PackedHalves : Prop := ∀ f : Syl,
  let half := fun (a : Word) (h : Nat) => a.toNat / 2 ^ (16 * h) % 2 ^ 16
  let m := fun (s : State) (x : Warp) => (fpEnv s x).mode
  VecWrites (.vhadd2 f) f (fun _ => 1) (fun _ => false) (fun s x l v => ∀ h, h < 2 → half (lowWord v) h =
    rounded s x fp16 ((fp16.value (half (srcA x s f l) h)).add (m s x)
      (if f.op64 then (fp16.value (half (srcB x s f l) h)).neg else fp16.value (half (srcB x s f l) h)))) ∧
  VecWrites (.vhmul2 f) f (fun _ => 1) (fun _ => false) (fun s x l v => ∀ h, h < 2 → half (lowWord v) h =
    rounded s x fp16 ((fp16.value (half (srcA x s f l) h)).mul (fp16.value (half (srcB x s f l) h)))) ∧
  VecWrites (.vhfma2 f) f (fun _ => 1) (fun _ => false) (fun s x l v => ∀ h, h < 2 → half (lowWord v) h =
    rounded s x fp16 (((fp16.value (half (srcA x s f l) h)).mul (fp16.value (half (srcB x s f l) h))).add (m s x)
      (fp16.value (half (srcC x s f l) h)))) ∧
  VecWrites (.vbfma2 f) f (fun _ => 1) (fun _ => false) (fun s x l v => ∀ h, h < 2 → half (lowWord v) h =
    rounded s x bf16 (((bf16.value (half (srcA x s f l) h)).mul (bf16.value (half (srcB x s f l) h))).add (m s x)
      (bf16.value (half (srcC x s f l) h))))

/-- VCVT from AFMT to OFMT (R117), VPACK and VUNPK (R118). A conversion to the same format is exact, and a NaN gives the
canonical NaN (R70, R117); an integer that fits is kept (R79). That a result to `%zero` enters the latch of its class is
log 74 (the model's inference). -/
def Obligations.Conversions : Prop :=
  (∀ f : Syl,
  VecWrites (.vcvt f) f (fun x => if fmtField x.r.fmt 8 = 7 then 2 else 1) (fun x => fmtField x.r.fmt 8 == 7) (fun s x l v =>
    let a := fmtField x.r.fmt 0
    let o := fmtField x.r.fmt 8
    let bits := if a = 7 then (srcA64 x s f l).toNat else (srcA x s f l).toNat % 2 ^ fmtWidth a
    v = low32n (if fmtIsInt o then
        (if fmtIsInt a then intBits (fmtWidth o) (if x.r.fmt.getLsbD 14 then satInt o (fmtInt a bits) else fmtInt a bits)
         else toIntFmt o (fpEnv s x).mode (ovtEntry (fpEnv s x).ovt o) (fmtValue a bits))
      else roundFmt o (fpEnv s x).mode (ovtEntry (fpEnv s x).ovt o) (fmtValue a bits))) ∧
  VecWrites (.vpack f) f (fun _ => 1) (fun _ => false) (fun s x l v =>
    let w := packWidth f.m.toNat
    ∀ k, v.getLsbD k = (decide (k < 32) &&
      if w * f.e.toNat ≤ k ∧ k < w * f.e.toNat + w then (srcA x s f l).getLsbD (k - w * f.e.toNat)
      else (srcB x s f l).getLsbD k)) ∧
  VecWrites (.vunpk f) f (fun _ => 1) (fun _ => false) (fun s x l v =>
    let w := packWidth f.m.toNat
    let g := (srcA x s f l).toNat / 2 ^ (w * f.e.toNat) % 2 ^ w
    (v.toNat : Int) = (if f.op64 = false ∧ 2 ^ (w - 1) ≤ g then (g : Int) - 2 ^ w else g) % 2 ^ 32)) ∧
  (∀ (c bits : Nat) (mode : RMode) (nsat : Bool) (ovt : DWord),
  c < 10 → bits < 2 ^ fmtWidth c →
  convert c c mode nsat ovt bits = (match c with
    | 0 => if (fp32.value bits).isNan then 0x7FC00000 else bits
    | 1 => if (fp16.value bits).isNan then 0x7E00 else bits
    | 2 => if (bf16.value bits).isNan then 0x7FC0 else bits
    | 7 => if (fp64.value bits).isNan then 0x7FF8000000000000 else bits
    | _ => bits))

/-- The special results of R120: a NaN gives the canonical NaN, and the zeros and infinities give the table's results.
VRCP, VRSQ, VSQRT, VEXP2, VLOG2, VSIN and VTANH (R119): each active lane's result is a fixed function of the opcode and
the source bits, with RMODE and the OFP32 entry, in class SF. Which of two bracketing values a result is stays free (log
12). That a result to `%zero` enters the latch of its class is log 74 (the model's inference). -/
def Obligations.SpecialFunctions : Prop :=
  (∀ (op : Nat) (cos : Bool) (mode : RMode) (ovt bits : Nat),
  0x48 ≤ op → op ≤ 0x4E → (cos = true → op = 0x4D) → bits < 2 ^ 32 →
  ((fp32.value bits).isNan = true → specialFn op cos mode ovt bits = 0x7FC00000) ∧
  (bits = 0 → specialFn op cos mode ovt bits = match op with
    | 0x48 | 0x49 => 0x7F800000
    | 0x4B => 0x3F800000
    | 0x4C => 0xFF800000
    | 0x4D => if cos then 0x3F800000 else 0
    | _ => 0) ∧
  (bits = 0x80000000 → specialFn op cos mode ovt bits = match op with
    | 0x48 | 0x49 => 0xFF800000
    | 0x4B => 0x3F800000
    | 0x4C => 0xFF800000
    | 0x4D => if cos then 0x3F800000 else 0x80000000
    | _ => 0x80000000) ∧
  (bits = 0x7F800000 → specialFn op cos mode ovt bits = match op with
    | 0x48 | 0x49 => 0
    | 0x4D => 0x7FC00000
    | 0x4E => 0x3F800000
    | _ => 0x7F800000) ∧
  (bits = 0xFF800000 → specialFn op cos mode ovt bits = match op with
    | 0x48 => 0x80000000
    | 0x4B => 0
    | 0x4E => 0xBF800000
    | _ => 0x7FC00000) ∧
  (2 ^ 31 < bits → bits < 0xFF800000 → op = 0x49 ∨ op = 0x4A ∨ op = 0x4C → specialFn op cos mode ovt bits = 0x7FC00000)) ∧
  (∀ f : Syl,
  let fn := fun (op : Nat) (cos : Bool) (s : State) (x : Warp) (l : Nat) (v : DWord) =>
    v = low32n (specialFn op cos (fpEnv s x).mode (ovtEntry (fpEnv s x).ovt 0) (srcA x s f l).toNat)
  VecWrites (.vrcp f) f (fun _ => 3) (fun _ => false) (fn 0x48 false) ∧
  VecWrites (.vrsq f) f (fun _ => 3) (fun _ => false) (fn 0x49 false) ∧
  VecWrites (.vsqrt f) f (fun _ => 3) (fun _ => false) (fn 0x4A false) ∧
  VecWrites (.vexp2 f) f (fun _ => 3) (fun _ => false) (fn 0x4B false) ∧
  VecWrites (.vlog2 f) f (fun _ => 3) (fun _ => false) (fn 0x4C false) ∧
  VecWrites (.vsin f) f (fun _ => 3) (fun _ => false) (fn 0x4D f.op64) ∧
  VecWrites (.vtanh f) f (fun _ => 3) (fun _ => false) (fn 0x4E false))

/-- VSHFL (R121): lane j of A by the mode, whether or not j is active. VMATCH (R125): the active lanes whose source
equals the lane's own. That a result to `%zero` enters the latch of its class is log 74 (the model's inference). -/
def Obligations.ShuffleAndMatch : Prop := ∀ f : Syl,
  VecWrites (.vshfl f) f (fun _ => 0) (fun _ => false) (fun s x l v =>
    let b := (srcB x s f l).toNat
    let seg := 2 ^ min (b % 8) 6
    ∃ j, j < 64 ∧ v = low32 (srcA x s f j) ∧ (j = match f.m.toNat with
      | 0 => b % 64
      | 1 => (l + b) % 64
      | 2 => l ^^^ (b % 64)
      | _ => l / seg * seg + (seg - 1 - l % seg))) ∧
  VecWrites (.vmatch f) f (fun _ => 0) (fun _ => true) (fun s x l v => ∀ j, v.getLsbD j =
    ((x.r.active f.g1 f.g2).getLsbD j &&
      if f.op64 then srcA64 x s f j == srcA64 x s f l else srcA x s f j == srcA x s f l))

/-- VRED (R122): an S register, or pair, takes the result whenever the bundle issues, the identity when no lane is
active; a V register takes it in every active lane. The class follows the type. That the result of an S register fills
all 64 lanes of its latch is log 72 (the model's inference). VSCAN of the integer types (R123): lane l takes the
combination over the active lanes up to it, or with `.ex` over those below it, where the lowest takes the identity.
VSCAN (R92, R123), of a floating type above all: the steps of R92 over the active lanes, of a floating minimum or
maximum with no payload of a NaN (R70), and with `.ex` the inclusive result of the nearest lower active lane, or the
identity. That a result to `%zero` enters the latch of its class is log 74 (the model's inference). -/
def Obligations.ReduceAndScan : Prop :=
  (∀ f s w, Issuing s w → f.m.toNat < 6 → (2 ≤ f.e.toNat % 4 → f.m.toNat < 3) →
  let x := s.issuer w
  let act := x.r.active f.g1 f.g2
  let ty := f.e.toNat % 4
  let cls := if ty < 2 then 0 else ty - 1
  let a := fun l : Nat => if ty = 3 then (srcA64 x s f l).toNat else (srcA x s f l).toNat
  (isS f.d.toNat = false ∧ act = 0 → NoEffect s w (exec (.vred f) s)) ∧
  (isS f.d.toNat = true ∨ act ≠ 0 → ∃ v : DWord, RedValue (fpEnv s x) f.m.toNat ty (laneList act) a act v.toNat ∧
    Answers (exec (.vred f) s) fun t =>
      if isS f.d.toNat then VecEffect s t w f.d.toNat cls (ty == 3) (laneBit 0) allLanes fun _ => v
      else VecEffect s t w f.d.toNat cls (ty == 3) act act fun _ => v)) ∧
  (∀ f s w, Issuing s w → f.e.toNat % 4 < 2 → f.m.toNat < 6 →
  let x := s.issuer w
  let act := x.r.active f.g1 f.g2
  let part := fun l : Nat => (laneList act).filter fun j => if f.e.getLsbD 2 then decide (j < l) else decide (j ≤ l)
  (act = 0 → NoEffect s w (exec (.vscan f) s)) ∧
  (act ≠ 0 → ∃ v : Nat → DWord, (∀ l, act.getLsbD l → RedValue (fpEnv s x) f.m.toNat (f.e.toNat % 4) (part l)
      (fun j => (srcA x s f j).toNat) act (v l).toNat) ∧
    Answers (exec (.vscan f) s) fun t => VecEffect s t w f.d.toNat 0 false act act v)) ∧
  (∀ f s w, Issuing s w →
  let x := s.issuer w
  let act := x.r.active f.g1 f.g2
  let ty := f.e.toNat % 4
  let a := fun l : Nat => if ty = 3 then (srcA64 x s f l).toNat else (srcA x s f l).toNat
  let least := 2 ≤ ty ∧ (f.m.toNat = 1 ∨ f.m.toNat = 2)
  let inc := scanAll (redOp (fpEnv s x) f.m.toNat ty) act fun l => if least then noPayload (if ty = 3 then fp64 else fp32) (a l) else a l
  (act = 0 → NoEffect s w (exec (.vscan f) s)) ∧
  (act ≠ 0 → ∃ v : Nat → DWord, (∀ l, act.getLsbD l → v l = low32n
      (if f.e.getLsbD 2 then
        match ((laneList act).filter fun k => k < l).getLast? with
        | none => redIdentity f.m.toNat ty
        | some k => (inc.getD k none).getD 0
       else (inc.getD l none).getD 0)) ∧
    Answers (exec (.vscan f) s) fun t =>
      VecEffect s t w f.d.toNat (if ty < 2 then 0 else ty - 1) (ty == 3) act act v))

/-- VBALLOT (R124): the active lanes in which Pa holds. An S pair takes the mask whenever the bundle issues; that it
then fills all 64 lanes of its latch is log 72 (the model's inference). VPMOV (R128): with `.get` the seven predicates
of each active lane go to D; with `.set` the low seven bits of A go to the predicates. That a result to `%zero` enters
the latch of its class is log 74 (the model's inference). -/
def Obligations.BallotAndPredicateMove : Prop :=
  (∀ f s w, Issuing s w →
  let x := s.issuer w
  let act := x.r.active f.g1 f.g2
  (isS f.d.toNat = false ∧ act = 0 → NoEffect s w (exec (.vballot f) s)) ∧
  (isS f.d.toNat = true ∨ act ≠ 0 → ∃ m : DWord,
    (∀ l, m.getLsbD l = (act.getLsbD l && (x.r.readP f.a.toNat).getLsbD l)) ∧
    Answers (exec (.vballot f) s) fun t =>
      if isS f.d.toNat then VecEffect s t w f.d.toNat 0 true (laneBit 0) allLanes fun _ => m
      else VecEffect s t w f.d.toNat 0 true act act fun _ => m)) ∧
  (∀ f s w, Issuing s w →
  let x := s.issuer w
  let act := x.r.active f.g1 f.g2
  (act = 0 → NoEffect s w (exec (.vpmov f) s)) ∧
  (act ≠ 0 → f.op64 = false → ∃ v : Nat → DWord,
    (∀ l i, act.getLsbD l → (v l).getLsbD i = (decide (i < 7) && (x.r.readP i).getLsbD l)) ∧
    Answers (exec (.vpmov f) s) fun t => VecEffect s t w f.d.toNat 0 false act act v) ∧
  (act ≠ 0 → f.op64 = true → Answers (exec (.vpmov f) s) fun t => ∃ fl, OnlyFlight s t w fl ∧
    Adds x.r.flight fl ((List.range 7).map .p) ∧
    ∀ i, i < 7 → InFlight fl (.p i) act (fun l => if (srcA x s f l).getLsbD i then 1 else 0) (writeCycle s w 0) (seenCycle s w 0)))

/-- VOTE (R126): one value for every active lane, from how many of them hold Pa. The reserved condition, an E beside a
condition that takes no threshold, and a threshold above 64 give reason 4. -/
def Obligations.Vote : Prop := (∀ f : Syl, f.m.toNat < 7 →
  PredWrites (.vote f) f 0 (fun _ x _ =>
    let act := x.r.active f.g1 f.g2
    let n := (laneList act).length
    let c := ((laneList act).filter fun l => (x.r.readP f.a.toNat).getLsbD l).length
    match f.m.toNat with
    | 0 => f.e.toNat ≤ c
    | 1 => c < f.e.toNat
    | 2 => c = n
    | 3 => c = 0
    | 4 => n < 2 * c
    | 5 => c = 0 ∨ c = n
    | _ => c % 2 = 1)) ∧
  ∀ f : Syl, f.m.toNat = 7 ∨ (2 ≤ f.m.toNat ∧ f.e ≠ 0) ∨ 64 < f.e.toNat → 4 ∈ staticReasons (.vote f)

/-- VPLOG (R127): the bit of the truth table that the three predicates of the lane select. -/
def Obligations.PredicateTable : Prop := ∀ f : Syl,
  PredWrites (.vplog f) f 0 (fun _ x l =>
    let bit := fun c : BitVec 8 => if (x.r.readP c.toNat).getLsbD l then 1 else 0
    f.e.getLsbD (4 * bit f.a + 2 * bit f.b + bit f.c) = true)

/-! ### The memory slot -/

/-- LDG, LDC, STG, LDACQ, STREL, ATOM, RED, QPOST, QTAKE and TLSIG (R131 to R133, R137 to R139): one operation in
flight, with its kind, its bytes, its registers, its scope, the address A64 + sext(B) of each lane and the data of C. No
byte of memory changes at issue. LDACQ and QTAKE hold later issue (R138). What precise memory mode translates at issue
is the subject of PreciseAccessIssues. -/
def Obligations.GlobalAccesses : Prop := ∀ (f : Syl) (i : Instr) (k : MemKind) (bytes dst data scope : Nat) (s : State) (w : Warp),
  let sized := match f.m.toNat with
    | 0 | 1 => 1
    | 2 | 3 => 2
    | 5 => 8
    | 6 => 16
    | _ => 4
  let regs := (max 4 sized) / 4
  let wide := if f.op64 then 8 else 4
  let two := if f.op64 then 2 else 1
  let cas := f.e.toNat % 16 = 9
  (i, k, bytes, dst, data, scope) ∈ [
    (Instr.ldg f, MemKind.load, sized, regs, 0, 0), (.ldc f, .load, sized, regs, 0, 0), (.stg f, .store, sized, 0, regs, 0),
    (.ldacq f, .ldacq, wide, two, 0, f.e.toNat), (.strel f, .strel, wide, 0, two, f.e.toNat),
    (.atom f, .atom, wide, two, if cas then 2 * two else two, f.e.toNat / 16), (.red f, .red, wide, 0, two, f.e.toNat / 16),
    (.qpost f, .qpost, 64, 1, 2, f.e.toNat), (.qtake f, .qtake, 64, 2, 0, f.e.toNat), (.tlsig f, .tlsig, 8, 0, 2, f.e.toNat)] →
  Issuing s w →
  let x := s.issuer w
  let act := x.r.active f.g1 f.g2
  (act = 0 → OnlyCounts s w (exec i s)) ∧
  (act ≠ 0 → w.precise = false → Issues s (exec i s) fun t => ∃ o : MemOp,
    Flies s t w o (if dst = 0 then 244 else f.d.toNat) dst act (k = .ldacq || k = .qtake) ∧
    o.kind = k ∧ o.size = bytes ∧ o.scope = scope ∧ o.act = act ∧ o.lanes = accessLanes x i act ∧
    (∀ l, o.lanes.getLsbD l → ((tget 0 o.addr l).toNat : Int) =
      ((srcA64 x s f (accessLaneOf x i l)).toNat + (srcB x s f (accessLaneOf x i l)).toInt) % 2 ^ 64) ∧
    (data ≠ 0 → ∀ l, o.lanes.getLsbD l →
      tget 0 o.data l = BitVec.ofNat 128 (srcN x s.issue f.e data f.c.toNat (accessLaneOf x i l))) ∧
    o.team = 0 ∧ o.die = 0 ∧ o.sys = 0 ∧ o.faulted = 0)

/-- In precise memory mode an access is translated when it issues (R165, R346): it is in flight, nothing of it
performed, with every lane translated or faulted, and the fault is on record for replay; where nothing but the access
lasts of its bundle, that is its issue, else it is performed with the bundle. That a fault is met at issue is a reading
of the model (log 20). Of an access in precise mode that its peer, a lost link or an error in its data turns away, no
lane has been performed; a store enters the buffer, where none of these meets it. -/
def Obligations.PreciseAccessIssues : Prop := (∀ (f : Syl) (i : Instr) (s : State) (w : Warp),
  i ∈ [Instr.ldg f, .ldc f, .stg f, .ldl f, .stl f, .ldacq f, .strel f, .atom f, .red f, .qpost f, .qtake f, .tlsig f] →
  Issuing s w → w.precise = true → w.ended = false →
  let act := (s.issuer w).r.active f.g1 f.g2
  act ≠ 0 → Issues s (exec i s) fun t => t.nextId = s.nextId + 1 ∧ ∃ o y, tfind t.mops s.nextId = some o ∧
    tfind t.warps s.cur = some y ∧ o.warp = s.cur ∧ o.seq = w.memSeq ∧ o.act = act ∧ o.lanes = accessLanes (s.issuer w) i act ∧
    o.team = 0 ∧ o.lanes &&& ~~~(o.xlated ||| o.faulted) = 0 ∧ y.memSeq = w.memSeq + 1 ∧
    (o.faulted ≠ 0 → ∃ q ∈ y.faults, q.op = s.nextId ∧ q.replay = true ∧ q.cause = o.cause)) ∧
  ∀ (s : State) (id : Nat) (o : MemOp) (lanes : Lanes) (answers : List Nat),
    tfind s.mops id = some o → wholeAccess s o = true → s.ckpt = none → o.faulted = 0 →
    Answers (exec (.homeAccess id lanes answers []) s) fun t =>
      ∀ o', tfind t.mops id = some o' → o'.faulted ≠ 0 → o'.team = o.team

/-- LDS, STS and ATOMS at the unsigned offset B in the allocation that handle A names now, and LDL and STL at the spill
addresses of R144 (R131, R143). Precise memory mode leaves the issue of a tile access as it is. That a scalar LDL or STL
takes the spill area of its lowest active lane is log 75 (the model's inference). -/
def Obligations.TileAndSpillAccesses : Prop := ∀ (f : Syl) (i : Instr) (k : MemKind) (bytes dst data : Nat) (spill : Bool) (s : State) (w : Warp),
  let sized := match f.m.toNat with
    | 0 | 1 => 1
    | 2 | 3 => 2
    | 5 => 8
    | 6 => 16
    | _ => 4
  let regs := (max 4 sized) / 4
  let two := if f.op64 then 2 else 1
  (i, k, bytes, dst, data, spill) ∈ [
    (Instr.lds f, MemKind.tileLoad, sized, regs, 0, false), (.sts f, .tileStore, sized, 0, regs, false),
    (.atoms f, .tileAtom, if f.op64 then 8 else 4, two, if f.e.toNat % 16 = 9 then 2 * two else two, false),
    (.ldl f, .load, sized, regs, 0, true), (.stl f, .store, sized, 0, regs, true)] →
  Issuing s w →
  let x := s.issuer w
  let act := x.r.active f.g1 f.g2
  (act = 0 → OnlyCounts s w (exec i s)) ∧
  (act ≠ 0 → (spill = true → w.precise = false) → Issues s (exec i s) fun t => ∃ o : MemOp,
    Flies s t w o (if dst = 0 then 244 else f.d.toNat) dst act false ∧
    o.kind = k ∧ o.size = bytes ∧ o.spill = spill ∧ o.act = act ∧ o.lanes = accessLanes x i act ∧
    (∀ l, o.lanes.getLsbD l →
      let off := (srcB x s f (accessLaneOf x i l)).toNat
      (tget 0 o.addr l).toNat = if spill then (w.lbase.toNat + off / 4 * 256 + 4 * l + off % 4) % 2 ^ 64 else off) ∧
    (spill = false → ∀ q, handleOf s w f.a.toNat = some q → o.handle = q.gen) ∧
    (data ≠ 0 → ∀ l, o.lanes.getLsbD l →
      tget 0 o.data l = BitVec.ofNat 128 (srcN x s.issue f.e data f.c.toNat (accessLaneOf x i l))) ∧
    o.team = 0 ∧ o.die = 0 ∧ o.sys = 0 ∧ o.faulted = 0)

/-- FENCE, RFENCE and ICINV (R146, R147, R159): an operation that accesses nothing and covers the earlier accesses of
the warp that have an active lane of it: all of them for FENCE, stores, atomics and reductions for the others. FENCE and
RFENCE hold later issue. In a handler the lanes that faulted in the code below it are not covered (log 22). A VNOP, an
MNOP and an ENOP complete and have no effect (R53, R103, R173). PREF (R130, R148): one operation in flight for the
active lanes, or the one of a scalar form, whose addresses are multiples of the size below 2^56; with none it only
counts. It has no result, and it only counts for the warp. A lane that is served leaves it, and it is over with the
last; a lane that requests a line waits until the bucket has the four tokens of it (R250). -/
def Obligations.FencesAndNoOperations : Prop :=
  (∀ (f : Syl) (i : Instr) (k : MemKind) (scope dst : Nat) (s : State) (w : Warp),
  (i, k, scope, dst) ∈ [(Instr.fence f, MemKind.fence, f.e.toNat, 0), (.rfence f, .rfence, 2, 0),
    (.icinv f, .icinv, f.e.toNat, 1)] →
  Issuing s w →
  let act := (s.issuer w).r.active f.g1 f.g2
  (act = 0 → OnlyCounts s w (exec i s)) ∧
  (act ≠ 0 → Issues s (exec i s) fun t => ∃ o : MemOp,
    Flies s t w o (if dst = 0 then 244 else f.d.toNat) dst act (k = .fence || k = .rfence) ∧
    o.kind = k ∧ o.scope = scope ∧ o.lanes = 0 ∧ o.act = act ∧
    ∀ id p, (id, p) ∈ s.mops → p.warp = s.cur → p.kind.isAccess = true → (k = .fence ∨ p.kind.isWrite = true) →
      p.act &&& act ≠ 0 →
      let m := (if p.scalar then p.lanes else p.lanes &&& act) &&& ~~~(if p.level.num < w.level.num then p.faulted else 0)
      m ≠ 0 → (id, m) ∈ o.cover)) ∧
  (∀ (f : Syl) (i : Instr) (s : State) (w : Warp), i ∈ [Instr.vnop f, .mnop f, .enop f] →
  Issuing s w → ∃ t, exec i s = .next t ∧ t = s.setWarp s.cur (s.issuer w)) ∧
  ((∀ (f : Syl) (s : State) (w : Warp), Issuing s w →
  let x := s.issuer w
  let i := Instr.pref f
  let act := x.r.active f.g1 f.g2
  let bytes := match f.m.toNat with
    | 0 | 1 => 1
    | 2 | 3 => 2
    | 5 => 8
    | 6 => 16
    | _ => 4
  let va := fun l : Nat => (srcA64 x s f (accessLaneOf x i l) + (srcB x s f (accessLaneOf x i l)).signExtend 64).toNat
  let kept := fun l : Nat => (accessLanes x i act).getLsbD l && decide (va l < 2 ^ 56) && va l % bytes == 0
  (act = 0 ∨ (∀ l, kept l = false) → OnlyCounts s w (exec i s)) ∧
  (act ≠ 0 → (∃ l, kept l = true) → Answers (exec i s) fun t => ∃ o : MemOp, Flies s t w o 244 0 act false ∧ o.kind = .pref ∧
    o.act = act ∧ o.words = 0 ∧ (∀ l, l < 64 → o.lanes.getLsbD l = kept l) ∧
    ∀ l, kept l = true → (tget 0 o.addr l).toNat = va l)) ∧
  ∀ (s : State) (id l : Nat) (o : MemOp) (answers : List Nat), tfind s.mops id = some o → o.kind = .pref → l < 64 → s.ckpt = none →
    (prefReady s id o l = false → exec (.homeAccess id (laneBit l) answers []) s = .next s) ∧
    (∀ u r, prefReady s id o l = true → prefetchLine s o l = (u, r) →
      (∀ line, r = some line → bucketPays u o.ctx (portOf o.cluster (128 * line)) 4 = false →
        exec (.homeAccess id (laneBit l) answers []) s = .next s) ∧
      ((∀ line, r = some line → bucketPays u o.ctx (portOf o.cluster (128 * line)) 4 = true) →
        Answers (exec (.homeAccess id (laneBit l) answers []) s) fun t =>
          (o.lanes &&& ~~~laneBit l = 0 → tfind t.mops id = none) ∧
          (o.lanes &&& ~~~laneBit l ≠ 0 → ∃ o', tfind t.mops id = some o' ∧ o'.lanes = o.lanes &&& ~~~laneBit l))))

/-- HALLOC (R152): an invalid request gives 3, a handle in use 2, no space 1. A request that is granted gives 0, and the
team's table holds the allocation, its rows and its bytes, which issue sees from the next cycle on (R254). That a
request is judged and takes its space at issue is log 26, the order of the refusals log 77 (the model's choices). In
precise memory mode a request behind an open checkpoint waits for it (R346), as do HFREE's and HQRY's, and has its
effect with RESULT_DELIVERY. HFREE (R153) and HQRY (R154). HFREE gives 3 for no handle and 1 for one that is free; else
the handle leaves the table, as issue sees it from the next cycle on, and the status 0 waits for its space. HQRY gives
the allocation's word, or zero. A request that waited is performed when no older checkpoint stands. -/
def Obligations.TileHandles : Prop :=
  (∀ (f : Syl) (s : State) (w : Warp) (tm : Team), Issuing s w →
  let x := s.issuer w
  let l := lowLane x.r.group.mask
  let rows := (srcA x s f l).toNat
  let rb := (srcB x s f l).toNat
  let h := (srcC x s f l).toNat
  let bad := 64 ≤ h ∨ tm.handles ≤ h ∨ rows = 0 ∨ 65536 < rows ∨ rb % 4 ≠ 0 ∨ rb < 4 ∨ 65536 < rb ∨
    (if f.op64 then 2 ^ 26 else 2 ^ 20) < rows * rb
  let bytes := if f.op64 then (rows * rb + 4095) / 4096 * 4096 else (rows * rb + 255) / 256 * 256
  let fits := if f.op64 then tget 0 (s.die (clusterOf s.cur / 80)).pinned w.part + bytes / 4096 ≤ pinQuota s w.part (clusterOf s.cur / 80)
    else (s.cluster (clusterOf s.cur)).spaceUsed + bytes ≤ 2 ^ 20
  tfind s.teams w.team = some tm →
  (x.r.active f.g1 f.g2 = 0 → OnlyCounts s w (exec (.halloc f) s)) ∧
  (x.r.active f.g1 f.g2 ≠ 0 → w.precise = true → w.checkpoint ≠ [] → Answers (exec (.halloc f) s) fun t =>
    Replies s t w f.d.toNat 1 true x.r.group.mask false (fun _ _ => 0) ∧ t.teams = s.teams ∧ SameBytes s t ∧
      ∃ q, tfind t.replies s.nextId = some q ∧ q.req = some (.halloc h rows rb f.op64) ∧ q.seq = w.memSeq) ∧
  (x.r.active f.g1 f.g2 ≠ 0 → w.precise = false ∨ w.checkpoint = [] → ∃ status : Nat, (bad → status = 3) ∧
    (¬ bad → (tfind tm.htab h).isSome = true → status = 2) ∧
    (¬ bad → tfind tm.htab h = none → (fits → status = 0) ∧ (¬ fits → status = 1)) ∧
    Answers (exec (.halloc f) s) fun t =>
      Replies s t w f.d.toNat 1 true x.r.group.mask true (fun _ _ => BitVec.ofNat 32 status) ∧ SameBytes s t ∧
      (status ≠ 0 → t.teams = s.teams) ∧
      (status = 0 → ∃ q tm', tfind t.teams w.team = some tm' ∧ tfind tm'.htab h = some q ∧ q.rows = rows ∧ q.rowBytes = rb ∧
        q.level1 = f.op64 ∧ q.grant = bytes ∧ q.bytes = [] ∧ q.since = (s.cluster (clusterOf s.cur)).cycle + 1 ∧ ∀ k, k ≠ h → tfind tm'.htab k = tfind tm.htab k))) ∧
  ((∀ (s : State) (id : Nat) (q : Reply) (r : HandleReq) (w : Warp), OneSubject s id → tfind s.replies id = some q → q.req = some r →
    r.held = true → tfind s.warps q.warp = some w →
    let older := w.checkpoint.any fun c => decide (c.seq < q.seq)
    (older = true → exec (.resultDelivery id) s = .next s) ∧
    (older = false → Answers (exec (.resultDelivery id) s) fun t =>
      t.teams = (s.handleNow w (clusterOf q.warp) id r).1.teams ∧ t.warps = s.warps ∧ SameBytes s t ∧
      ∃ q', tfind t.replies id = some q' ∧ q'.req = none ∧ q'.dest = q.dest ∧ q'.lanes = q.lanes ∧
        q'.ready = (s.handleNow w (clusterOf q.warp) id r).2.2 ∧
        ∀ k, tget 0 q'.vals (64 * k) = BitVec.ofNat 32 ((s.handleNow w (clusterOf q.warp) id r).2.1.getD k 0))) ∧
  ∀ (f : Syl) (s : State) (w : Warp) (tm : Team), Issuing s w →
  tfind s.teams w.team = some tm →
  let x := s.issuer w
  let h := (srcA x s f (lowLane x.r.group.mask)).toNat
  (x.r.active f.g1 f.g2 = 0 → OnlyCounts s w (exec (.hfree f) s) ∧ OnlyCounts s w (exec (.hqry f) s)) ∧
  (x.r.active f.g1 f.g2 ≠ 0 → w.precise = true → w.checkpoint ≠ [] → ∀ p, p ∈ [(Instr.hfree f, 1, HandleReq.hfree h), (.hqry f, 2, .hqry h)] →
    Answers (exec p.1 s) fun t => Replies s t w f.d.toNat p.2.1 true x.r.group.mask false (fun _ _ => 0) ∧ t.teams = s.teams ∧
      SameBytes s t ∧ ∃ q, tfind t.replies s.nextId = some q ∧ q.req = some p.2.2 ∧ q.seq = w.memSeq) ∧
  (x.r.active f.g1 f.g2 ≠ 0 → w.precise = false ∨ w.checkpoint = [] →
    (Answers (exec (.hfree f) s) fun t => SameBytes s t ∧
      (64 ≤ h → t.teams = s.teams ∧ Replies s t w f.d.toNat 1 true x.r.group.mask true fun _ _ => 3) ∧
      (h < 64 → tfind tm.htab h = none → t.teams = s.teams ∧ Replies s t w f.d.toNat 1 true x.r.group.mask true fun _ _ => 1) ∧
      (∀ q, h < 64 → tfind tm.htab h = some q → Replies s t w f.d.toNat 1 true x.r.group.mask false (fun _ _ => 0) ∧
        t.teams = tput s.teams w.team { tm with htab := terase tm.htab h } ∧
        ∃ old, tfind t.oldHandles q.gen = some old ∧ old.h = q ∧ old.number = h ∧ old.reply = some s.nextId ∧
          old.gone = (s.cluster (clusterOf s.cur)).cycle + 1)) ∧
    (Answers (exec (.hqry f) s) fun t => SameBytes s t ∧ t.teams = s.teams ∧ ∃ v : Nat,
      (64 ≤ h ∨ tfind tm.htab h = none → v = 0) ∧
      (∀ q, h < 64 → tfind tm.htab h = some q → v = (q.rows - 1) + 2 ^ 16 * (q.rowBytes / 4 - 1) +
        (if q.level1 then 2 ^ 30 else 0) + 2 ^ 31 + 2 ^ 32 * (q.grant / 256)) ∧
      Replies s t w f.d.toNat 2 true x.r.group.mask true fun k _ => BitVec.ofNat 32 (v / 2 ^ (32 * k)))))

/-- A store of R141 is performed at `.team` when it enters its cluster's buffer, where no byte at any home changes, and
at `.dev` when it is drained: then exactly its bytes at its address hold its data, little-endian (R4, R256). STS writes
exactly its bytes of the allocation that it names, at its offset (R143). -/
def Obligations.StorePerforms : Prop := (∀ (s : State) (id l : Nat) (o : MemOp) (w : Warp) (q : Handle) (answers : List Nat), AtTile s id l o w q → o.kind = .tileStore →
    let off := (tget 0 o.addr l).toNat
    Answers (exec (.homeAccess id (laneBit l) answers []) s) fun t => SameBytes s t ∧ ∃ q', findHandle t w.team o.handle = some q' ∧
      q' = { q with bytes := q'.bytes } ∧
      (∀ j, j < o.size → tget 0 q'.bytes (off + j) = BitVec.ofNat 8 ((tget 0 o.data l).toNat / 256 ^ j)) ∧
      (∀ a, a < off ∨ off + o.size ≤ a → tget 0 q'.bytes a = tget 0 q.bytes a) ∧
      ∀ o', tfind t.mops id = some o' → o'.team = o.team ||| laneBit l) ∧
  ∀ (s : State) (id l key : Nat) (o : MemOp) (answers : List Nat),
  AtHome s id l o key → o.kind = .store ∨ o.kind = .strel →
  (o.team.getLsbD l = false → Answers (exec (.homeAccess id (laneBit l) answers []) s) fun t => SameBytes s t ∧
    t.mem = s.mem ∧ ∃ o', tfind t.mops id = some o' ∧ o'.team = o.team ||| laneBit l ∧ o'.die = o.die ∧ o'.sys = o.sys) ∧
  (o.team.getLsbD l = true → Answers (exec (.homeAccess id (laneBit l) answers []) s) fun t => t.mem = s.mem ∧
    (∀ j, j < o.size → t.homeByte (key + j) = BitVec.ofNat 8 ((tget 0 o.data l).toNat / 256 ^ j)) ∧
    (∀ a, a < key ∨ key + o.size ≤ a → t.homeByte a = s.homeByte a) ∧
    ∀ o', tfind t.mops id = some o' → o'.die = o.die ||| laneBit l ∧ o'.sys = o.sys ||| laneBit l)

/-- A load that is not of the read-only L1 reads each byte from its cluster's buffer, else from the home, and changes no
byte; LDACQ does the same (R141, R145, R256). LDS reads each byte from the allocation that it names, at its offset
(R143). A lane whose place another lane of the load has read already takes that value. -/
def Obligations.LoadPerforms : Prop := (∀ (s : State) (id l : Nat) (o : MemOp) (w : Warp) (q : Handle) (answers : List Nat), AtTile s id l o w q → o.kind = .tileLoad →
    o.words ≠ 0 → o.dl.getLsbD l = false → o.size ≤ 16 →
    Answers (exec (.homeAccess id (laneBit l) answers []) s) fun t => SameBytes s t ∧ t.teams = s.teams ∧
      ∃ o', tfind t.mops id = some o' ∧ o'.team = o.team ||| laneBit l ∧
        (∀ k, o.twin l = some k → tget 0 o'.vals l = tget 0 o.vals k) ∧
        (o.twin l = none → ∀ j, j < o.size → (tget 0 o'.vals l).toNat / 256 ^ j % 256 =
          (tget 0 q.bytes ((tget 0 o.addr l).toNat + j)).toNat)) ∧
  ∀ (s : State) (id l key : Nat) (o : MemOp) (answers : List Nat),
  AtHome s id l o key → (o.kind = .load ∧ o.ro = false) ∨ o.kind = .ldacq → o.words ≠ 0 → o.dl.getLsbD l = false →
  o.size ≤ 16 →
  Answers (exec (.homeAccess id (laneBit l) answers []) s) fun t => SameBytes s t ∧ t.mem = s.mem ∧
    ∃ o', tfind t.mops id = some o' ∧ o'.team = o.team ||| laneBit l ∧ o'.die = o.die ||| laneBit l ∧
      (∀ q, o.twin l = some q → tget 0 o'.vals l = tget 0 o.vals q) ∧
      (o.twin l = none → ∀ j, j < o.size → (tget 0 o'.vals l).toNat / 256 ^ j % 256 =
        (match bufferByte s o.cluster (key + j) with
         | some b => b
         | none => s.homeByte (key + j)).toNat)

/-- ATOM and RED at the home (R149 to R151): the bytes at the address become the new value, no other byte changes, and
ATOM keeps the old value for its destination. ATOMS does the same to the bytes of its allocation (R143). QPOST at the
home of its descriptor (R155, R156): where k payloads fit, entries TAIL to TAIL + k − 1 take them in increasing lane
order, TAIL advances by k, no other byte changes and the status is 0; else no byte changes and it is 1. QTAKE (R157):
the j lowest lanes receive entries HEAD to HEAD + j − 1, the others the no-item value, and HEAD advances by j. TLSIG
(R158): the counter becomes the sum or c, but that a backwards `.set` at user level leaves it and faults with 0x0C4. The
pages of ring and descriptor are in the TLB and their bytes nowhere on their way; an entry's place is any that lies
apart from the others and from the descriptor. -/
def Obligations.AtomicPerforms : Prop :=
  ((∀ (s : State) (id l key : Nat) (o : MemOp) (answers : List Nat),
    AtHome s id l o key → o.kind = .atom ∨ o.kind = .red → o.size = 4 ∨ o.size = 8 → o.fn < 11 →
    let old := bytesToNat (s.homeBytes key o.size)
    let d := atomicOperands o l
    Answers (exec (.homeAccess id (laneBit l) answers []) s) fun t => t.mem = s.mem ∧
      bytesToNat (t.homeBytes key o.size) = atomicResult o.fn (8 * o.size) old d.1 d.2 % 2 ^ (8 * o.size) ∧
      (∀ a, a < key ∨ key + o.size ≤ a → t.homeByte a = s.homeByte a) ∧
      (o.kind = .atom → o.words ≠ 0 → o.dl.getLsbD l = false →
        ∃ o', tfind t.mops id = some o' ∧ (tget 0 o'.vals l).toNat = old)) ∧
  ∀ (s : State) (id l : Nat) (o : MemOp) (w : Warp) (q : Handle) (answers : List Nat),
    AtTile s id l o w q → o.kind = .tileAtom → o.size = 4 ∨ o.size = 8 → o.fn < 11 →
    let off := (tget 0 o.addr l).toNat
    let old := bytesToNat (q.read off o.size)
    let d := atomicOperands o l
    Answers (exec (.homeAccess id (laneBit l) answers []) s) fun t => SameBytes s t ∧ ∃ q', findHandle t w.team o.handle = some q' ∧
      q' = { q with bytes := q'.bytes } ∧ bytesToNat (q'.read off o.size) = atomicResult o.fn (8 * o.size) old d.1 d.2 % 2 ^ (8 * o.size) ∧
      (∀ a, a < off ∨ off + o.size ≤ a → tget 0 q'.bytes a = tget 0 q.bytes a) ∧
      (o.words ≠ 0 → o.dl.getLsbD l = false → ∃ o', tfind t.mops id = some o' ∧ (tget 0 o'.vals l).toNat = old)) ∧
  ((∀ (s : State) (id key : Nat) (place : Nat → Nat) (o : MemOp) (answers : List Nat),
    let l := lowLane o.lanes
    let va := (tget 0 o.addr l).toNat
    let q := ringOf (s.homeBytes key 64)
    let cap := 2 ^ q.caplog
    let used := (q.tail + 2 ^ 64 - q.head) % 2 ^ 64
    let k := laneCount o.lanes
    let at1 := fun i => place (i % cap)
    AtHome s id l o key → o.size = 64 → va % 64 = 0 → Resident s o .read va key →
    Resident s o .write (va + 0x10) (key + 0x10) → Resident s o .write (va + 0x18) (key + 0x18) →
    q.valid = true → s.posted = [] → (∀ i, i < 64 → bufferByte s o.cluster (key + i) = none) →
    (∀ i, i < cap → Resident s o .read (q.base + 8 * i) (place i) ∧ Resident s o .write (q.base + 8 * i) (place i) ∧
      (place i + 8 ≤ key ∨ key + 64 ≤ place i) ∧ (∀ j, j < 8 → bufferByte s o.cluster (place i + j) = none) ∧
      ∀ j, j < cap → j ≠ i → place i + 8 ≤ place j ∨ place j + 8 ≤ place i) →
    (o.kind = .qpost → Answers (exec (.homeAccess id (laneBit l) answers []) s) fun t =>
      (cap < used + k → SameBytes s t ∧ (o.words ≠ 0 → o.dl.getLsbD l = false →
        ∃ o', tfind t.mops id = some o' ∧ tget 0 o'.vals l = 1)) ∧
      (used + k ≤ cap →
        (∀ e x, (x, e) ∈ (laneList o.lanes).zipIdx → bytesToNat (t.homeBytes (at1 (q.tail + e)) 8) = (tget 0 o.data x).toNat % 2 ^ 64) ∧
        bytesToNat (t.homeBytes (key + 0x18) 8) = (q.tail + k) % 2 ^ 64 ∧
        (∀ a, (a < key + 0x18 ∨ key + 0x20 ≤ a) →
          (∀ e, e < k → a < at1 (q.tail + e) ∨ at1 (q.tail + e) + 8 ≤ a) → t.homeByte a = s.homeByte a) ∧
        (o.words ≠ 0 → o.dl.getLsbD l = false → ∃ o', tfind t.mops id = some o' ∧ tget 0 o'.vals l = 0))) ∧
    (o.kind = .qtake → o.words ≠ 0 → o.dl = 0 → Answers (exec (.homeAccess id (laneBit l) answers []) s) fun t =>
      let j := min k used
      bytesToNat (t.homeBytes (key + 0x10) 8) = (q.head + j) % 2 ^ 64 ∧
      (∀ a, a < key + 0x10 ∨ key + 0x18 ≤ a → t.homeByte a = s.homeByte a) ∧
      ∃ o', tfind t.mops id = some o' ∧ ∀ e x, (x, e) ∈ (laneList o.lanes).zipIdx → (tget 0 o'.vals x).toNat =
        if e < j then bytesToNat (s.homeBytes (at1 (q.head + e)) 8) else 2 ^ 63)) ∧
  ∀ (s : State) (id key : Nat) (o : MemOp) (answers : List Nat),
    let l := lowLane o.lanes
    AtHome s id l o key → o.kind = .tlsig → o.size = 8 →
    let c := (tget 0 o.data l).toNat % 2 ^ 64
    let old := bytesToNat (s.homeBytes key 8)
    let new := if o.fn = 8 then c else (old + c) % 2 ^ 64
    let turned := o.fn = 8 ∧ o.level = .user ∧ 2 ^ 63 ≤ (new + 2 ^ 64 - old) % 2 ^ 64
    Answers (exec (.homeAccess id (laneBit l) answers []) s) fun t =>
      (¬ turned → bytesToNat (t.homeBytes key 8) = new ∧ ∀ a, a < key ∨ key + 8 ≤ a → t.homeByte a = s.homeByte a) ∧
      (turned → SameBytes s t ∧ ∀ w, tfind s.warps o.warp = some w → w.ended = false →
        ∃ y, tfind t.warps o.warp = some y ∧ ∃ p ∈ y.faults, p.op = id ∧ p.replay = true ∧ (o.faulted = 0 → p.cause = 0x0C4)))

/-- A home access of a lane that is not ready changes nothing, but that a lane which meets an earlier faulted one faults
with it (R257, R267): a release waits until all that it covers has been performed at its scope (R145, R260), and a
checkpoint holds the hypervisor's stores (R388). An access that is performed whole, in precise memory mode, waits for
each of its lanes (R165), and until each has paid at its ports (R250). What a load, an LDS, an LDACQ or an atomic
operation has performed reaches its registers, narrow values extended (R25, R133, R139): each V register in the lanes
that still await it, one S register or pair once every lane has been performed. QTAKE delivers its pair alike, and QPOST
its status to its S register. No byte of memory and no other register changes. ICINV's status is delivered when what it
covers has been performed, and no bundle of its range is then left in an instruction cache that it targets, nor with its
warp (R159). -/
def Obligations.ValuesReachRegisters : Prop :=
  ((∀ (s : State) (id l : Nat) (o : MemOp) (answers : List Nat),
    tfind s.mops id = some o → l < 64 → o.kind ≠ .pref → inheritedCause s id o l = none →
    (wholeAccess s o = false ∧ (laneReady s id o l = false ∨ (o.kind = .strel ∧ o.team.getLsbD l = false ∧ released s o = false))) ∨
      (s.ckpt.isSome = true ∧ o.kind.isWrite = true) →
    exec (.homeAccess id (laneBit l) answers []) s = .next s) ∧
  ∀ (s : State) (id : Nat) (o : MemOp) (lanes : Lanes) (answers : List Nat),
    tfind s.mops id = some o → wholeAccess s o = true → (∀ q ∈ o.wholeLanes, inheritedCause s id o q = none) →
    let ready := fun q => laneReadyAt s id { o with team := o.team ||| (o.lanes &&& maskOf fun k => decide (k < q)) } q []
    ((∃ q ∈ o.wholeLanes, ready q = false) → exec (.homeAccess id lanes answers []) s = .next s) ∧
    (s.ckpt = none → paidAll (s.payLanes id laneTokens o.wholeLanes) id o.wholeLanes = false →
      Answers (exec (.homeAccess id lanes answers []) s) fun t => SameBytes s t ∧ t.mem = s.mem ∧ t.warps = s.warps ∧
        ∃ o', tfind t.mops id = some o' ∧ o' = { o with paid := o'.paid })) ∧
  ((∀ (s : State) (id : Nat) (o : MemOp) (w : Warp),
  let value := fun (l k : Nat) => if o.size < 4 ∧ o.signed = true then
      BitVec.ofInt 32 (if 2 ^ (8 * o.size - 1) ≤ (tget 0 o.vals l).toNat
        then ((tget 0 o.vals l).toNat : Int) - 2 ^ (8 * o.size) else (tget 0 o.vals l).toNat)
    else (tget 0 o.vals l).extractLsb' (32 * k) 32
  tfind s.mops id = some o → tfind s.warps o.warp = some w → OneSubject s id → o.words ≠ 0 →
  o.kind ∈ [MemKind.load, .ldacq, .atom, .tileLoad, .tileAtom, .qtake, .qpost] →
  (o.dest + o.words ≤ w.r.allot → w.r.allot ≤ 192 → o.kind ≠ .qpost →
    Answers (exec (.resultDelivery id) s) fun t => SameBytes s t ∧ ∃ y, tfind t.warps o.warp = some y ∧
      (∀ l k, l < 64 → k < o.words → (o.lanes &&& o.team &&& ~~~o.dl).getLsbD l = true → w.r.pending (vKey (o.dest + k) l) = id + 1 →
        y.r.pending (vKey (o.dest + k) l) = 0 ∧ y.r.readV (o.dest + k) l = value l k) ∧
      (∀ n l, n < 192 → l < 64 → n < o.dest ∨ o.dest + o.words ≤ n ∨ w.r.pending (vKey n l) ≠ id + 1 →
        y.r.readV n l = w.r.readV n l) ∧
      (∀ n, y.r.readS n = w.r.readS n) ∧ (∀ n, y.r.readP n = w.r.readP n)) ∧
  (192 ≤ o.dest → o.dest + o.words ≤ 240 → o.lanes &&& ~~~o.team = 0 → o.lanes &&& ~~~o.dl ≠ 0 →
    Answers (exec (.resultDelivery id) s) fun t => SameBytes s t ∧ ∃ y, tfind t.warps o.warp = some y ∧
      (∀ k, k < o.words → w.r.pending (sKey (o.dest - 192 + k)) = id + 1 → y.r.pending (sKey (o.dest - 192 + k)) = 0 ∧
        y.r.readS (o.dest - 192 + k) = value (lowLane o.lanes) k) ∧
      (∀ n, n < o.dest - 192 ∨ o.dest - 192 + o.words ≤ n ∨ w.r.pending (sKey n) ≠ id + 1 → y.r.readS n = w.r.readS n) ∧
      (∀ n l, n < 192 → l < 64 → y.r.readV n l = w.r.readV n l) ∧ (∀ n, y.r.readP n = w.r.readP n))) ∧
  ∀ (s : State) (id : Nat) (o : MemOp) (w : Warp), tfind s.mops id = some o → tfind s.warps o.warp = some w →
    OneSubject s id → o.kind = .icinv → o.words = 1 →
    let l := lowLane o.act
    let va := (tget 0 o.addr l).toNat
    let n := (tget 0 o.data l).toNat % 2 ^ 32
    let hits := fun key => n = 0 ∨ (key / 2 ^ 58 = o.ctx ∧ key % 2 ^ 56 < va + n ∧ va < key % 2 ^ 56 + 32)
    (released s o = false → exec (.resultDelivery id) s = .next s) ∧
    (released s o = true → Answers (exec (.resultDelivery id) s) fun t => SameBytes s t ∧ tfind t.mops id = none ∧
      (∀ cl, (o.scope = 1 → cl = o.cluster) → (o.scope = 2 → cl / 80 = o.cluster / 80) →
        ∀ e ∈ (t.cluster cl).icache, ¬ hits e.1) ∧
      ∃ y, tfind t.warps o.warp = some y ∧ (n = 0 ∨ w.ctx = o.ctx → ∀ g ∈ y.r.groups, ∀ e ∈ g.ahead, ¬ hits (codeKey o.ctx e.1.toNat)) ∧
        (192 ≤ o.dest → o.dest < 240 → w.r.pending (sKey (o.dest - 192)) = id + 1 →
          y.r.pending (sKey (o.dest - 192)) = 0 ∧ y.r.readS (o.dest - 192) = 0)))

/-! ### The engine slot -/

/-- CSET (R174) writes one word of the shadow set and nothing else. CQRY (R177) gives the error address of a flag, or
the free entries of the cluster's copy queue. CGO, CGATH and CSCAT (R174 to R176): the operation enters the queue with
the shadow set, the record's address, the active lanes and their indices as they stand, and its flag is clear and bound
to it, with no error address. With no active lane CGO does nothing, and a gather or scatter of no row sets its flag. -/
def Obligations.CopiesIssue : Prop :=
  (∀ (f : Syl) (s : State) (w : Warp), Issuing s w →
  let x := s.issuer w
  let act := x.r.active f.g1 f.g2
  (act = 0 → NoEffect s w (exec (.cset f) s) ∧ NoEffect s w (exec (.cqry f) s)) ∧
  (act ≠ 0 →
    (∃ q, exec (.cset f) s = .next (s.setWarp s.cur { x with r := { x.r with shadow := q } }) ∧
      tget 0 q (f.e.toNat % 8) = srcA x s f (lowLane x.r.group.mask) ∧ ∀ j, j ≠ f.e.toNat % 8 → tget 0 q j = tget 0 x.r.shadow j) ∧
    Answers (exec (.cqry f) s) fun t => SameBytes s t ∧ t.copies = s.copies ∧
      (f.op64 = true → Replies s t w f.d.toNat 1 true x.r.group.mask true fun _ _ =>
        BitVec.ofNat 32 (64 - (s.copies.filter fun e => e.2.cluster == clusterOf s.cur).length)) ∧
      (f.op64 = false → Replies s t w f.d.toNat 2 true x.r.group.mask true fun k _ =>
        ((w.flag f.e.toNat).errAddr.extractLsb' (32 * k) 32)))) ∧
  (∀ (f : Syl) (i : Instr) (dir : CopyDir) (rows : Bool) (s : State) (w : Warp),
  (i, dir, rows) ∈ [(Instr.cgo f, if f.op64 then CopyDir.store else .load, false), (.cgath f, .gather, true),
    (.cscat f, .scatter, true)] →
  Issuing s w →
  let x := s.issuer w
  let act := x.r.active f.g1 f.g2
  (act = 0 → rows = false → NoEffect s w (exec i s)) ∧
  (act = 0 → rows = true → Answers (exec i s) fun t => SameBytes s t ∧ t.copies = s.copies ∧
    ∃ y, tfind t.warps s.cur = some y ∧ (y.flag f.e.toNat).state = 1 ∧ (y.flag f.e.toNat).bound = false) ∧
  (act ≠ 0 → Answers (exec i s) fun t => ∃ c : CopyOp,
    t = { s with warps := tput s.warps s.cur
                  (x.setFlag f.e.toNat { state := 0, bound := true, outcome := 0, errAddr := 0, op := s.nextId }),
                 copies := tput s.copies s.nextId c, nextId := s.nextId + 1 } ∧
    c.warp = s.cur ∧ c.dir = dir ∧ c.flag = f.e.toNat ∧ c.shadow = x.r.shadow ∧ c.lanes = act ∧ c.stage = 0 ∧
    c.recAddr = srcA64 x s f (lowLane x.r.group.mask) ∧
    (rows = true → ∀ l, act.getLsbD l → tget 0 c.index l = srcB x s f l)))

/-- MMA, MMAS, MWR, MZERO, MRD and MREL (R180, R182 to R184): an operation in issue order on its tile, with its
fragments, the formats and OVT as the bundle reads them. The products bind their flag; a readout's four registers await
it. -/
def Obligations.MatrixIssues : Prop := ∀ (f : Syl) (s : State) (w : Warp), Issuing s w →
  let x := s.issuer w
  let act := x.r.active f.g1 f.g2
  let op := fun (t : State) (id : Nat) (kind : MatKind) (tile : Nat) (m : MatOp) =>
    tfind t.mats id = some m ∧ m.warp = s.cur ∧ m.sub = subOf s.cur ∧ m.tile = tile ∧ m.kind = kind ∧ m.fmt = x.r.fmt ∧
      m.ovt = ovtOf s w.ctx
  let frag := fun (tab : Table Word) (code : BitVec 8) (n : Nat) =>
    ∀ k l, k < n → l < 64 → tget 0 tab (64 * k + l) = srcWord x s.issue f.e code.toNat k l
  (Answers (exec (.mma f) s) fun t => SameBytes s t ∧ ∃ m, op t s.nextId .mma f.d.toNat m ∧ m.flag = f.e.toNat ∧ frag m.a f.a 2 ∧
    frag m.b f.b 2 ∧ ∃ y, tfind t.warps s.cur = some y ∧ y = x.bindFlag f.e.toNat s.nextId) ∧
  (Answers (exec (.mmas f) s) fun t => SameBytes s t ∧ ∃ m, op t s.nextId .mmas f.d.toNat m ∧ m.flag = f.e.toNat ∧ frag m.a f.a 2 ∧
    frag m.b f.b 4 ∧ frag m.c f.c 1 ∧ ∃ y, tfind t.warps s.cur = some y ∧ y = x.bindFlag f.e.toNat s.nextId) ∧
  (Answers (exec (.mwr f) s) fun t => SameBytes s t ∧ tfind t.warps s.cur = some x ∧
    ∃ m, op t s.nextId .mwr f.d.toNat m ∧ frag m.a f.a 4) ∧
  (act ≠ 0 → Answers (exec (.mzero f) s) fun t => SameBytes s t ∧ tfind t.warps s.cur = some x ∧
    ∃ m, op t s.nextId .mzero f.d.toNat m) ∧
  (act = 0 → NoEffect s w (exec (.mzero f) s)) ∧
  (Answers (exec (.mrd f) s) fun t => SameBytes s t ∧ Replies s t w f.d.toNat 4 false allLanes false (fun _ _ => 0) ∧
    ∃ m, op t (s.nextId + 1) .mrd f.a.toNat m ∧ m.reply = s.nextId) ∧
  (f.op64 = true → Answers (exec (.mrel f) s) fun t => SameBytes s t ∧
    Replies s t w f.d.toNat 4 false allLanes false (fun _ _ => 0) ∧
    ∃ m q, op t (s.nextId + 1) .mrd f.a.toNat m ∧ op t (s.nextId + 2) .mrel f.a.toNat q) ∧
  (f.op64 = false → act ≠ 0 → Answers (exec (.mrel f) s) fun t => SameBytes s t ∧ tfind t.warps s.cur = some x ∧
    ∃ m, op t s.nextId .mrel f.a.toNat m) ∧
  (f.op64 = false → act = 0 → NoEffect s w (exec (.mrel f) s))

/-- The token of a tile (R181, R328). MACQ of a free tile takes it and sets the flag, with its issue (log 63, the
model's inference); of a held one it joins the end of the queue with its flag clear and bound. A release that is the
oldest operation on its tile, its readout delivered, gives the token to the head of the queue and sets that request's
flag, or frees the tile. A release by a warp that does not hold the token leaves the tile as it is. MATRIX_OP_COMPLETE
(R87, R88, R182 to R185): the oldest operation of a tile is performed and leaves. An integer MMA adds each exact sum of
products and saturates to 32 bits; MZERO zeroes every element; MWR takes element 0 of each word; a readout is delivered
from the elements. A tile under test holds its operations (R352); one that has retired meanwhile stays as it is, and a
product ends with 0x0AF on its flag (R328; that it does is a reading of the model, log 69). -/
def Obligations.TokensAndTiles : Prop :=
  ((∀ (f : Syl) (s : State) (w : Warp), Issuing s w →
    let x := s.issuer w
    let tile := (s.sub (subOf s.cur)).tile f.d.toNat
    (x.r.active f.g1 f.g2 = 0 → NoEffect s w (exec (.macq f) s)) ∧
    (x.r.active f.g1 f.g2 ≠ 0 → Answers (exec (.macq f) s) fun t => SameBytes s t ∧
      ∃ y, tfind t.warps s.cur = some y ∧
        (tile.token = .free → ((t.sub (subOf s.cur)).tile f.d.toNat).token = .held s.cur ∧
          (y.flag f.e.toNat).state = 1 ∧ (y.flag f.e.toNat).bound = false) ∧
        (tile.token ≠ .free → (t.sub (subOf s.cur)).tile f.d.toNat = { tile with queue := tile.queue ++ [(s.cur, f.e.toNat)] } ∧
          (y.flag f.e.toNat).state = 0 ∧ (y.flag f.e.toNat).bound = true))) ∧
  ∀ (s : State) (n tile id : Nat) (m : MatOp),
    (s.mats.find? fun e => e.2.sub == n && e.2.tile == tile) = some (id, m) → m.kind = .mrel → tfind s.replies m.reply = none →
    Answers (exec (.tokenRelease n tile) s) fun t => tfind t.mats id = none ∧ t.mem = s.mem ∧
      (((s.sub n).tile tile).token ≠ .held m.warp → (t.sub n).tile tile = (s.sub n).tile tile) ∧
      (((s.sub n).tile tile).token = .held m.warp → ((s.sub n).tile tile).queue = [] → ((t.sub n).tile tile).token = .free) ∧
      (∀ g fl q w, ((s.sub n).tile tile).token = .held m.warp → ((s.sub n).tile tile).queue = (g, fl) :: q → tfind s.warps g = some w →
        ((t.sub n).tile tile).token = .held g ∧ ((t.sub n).tile tile).queue = q ∧
        ∃ y, tfind t.warps g = some y ∧ (y.flag fl).state = 1)) ∧
  (∀ (s : State) (id : Nat) (m : MatOp),
  tfind s.mats id = some m → matOldest s id m = true → (4, 32 * m.sub + m.tile) ∉ s.bad →
  let x := (s.sub m.sub).tile m.tile
  (m.kind = .mrel ∨ (4, 32 * m.sub + m.tile) ∈ s.tests → exec (.matrixOpComplete id) s = .next s) ∧
  (m.kind ≠ .mrel → (4, 32 * m.sub + m.tile) ∉ s.tests → x.token = .retired →
    Answers (exec (.matrixOpComplete id) s) fun t => tfind t.mats id = none ∧ t.subs = s.subs ∧
      (m.kind = .mma → ∀ w, tfind s.warps m.warp = some w → ∃ y, tfind t.warps m.warp = some y ∧ (y.flag m.flag).state = 2 ∧
        (y.flag m.flag).outcome = 0x0F)) ∧
  (m.kind ≠ .mrel → (4, 32 * m.sub + m.tile) ∉ s.tests → x.token ≠ .retired → Answers (exec (.matrixOpComplete id) s) fun t => tfind t.mats id = none ∧ t.mem = s.mem ∧
    let y := (t.sub m.sub).tile m.tile
    (m.kind = .mma → x.integer = true → y.integer = true ∧ ∀ i j, i < 16 → j < 16 →
      asSigned 32 ((y.elem i j).toNat % 2 ^ 32) = max (-(2 ^ 31)) (min (2 ^ 31 - 1)
        (asSigned 32 ((x.elem i j).toNat % 2 ^ 32) +
          ((mmaPairs m i j).map fun p => fmtInt (fmtField m.fmt 0) p.1 * fmtInt (fmtField m.fmt 4) p.2).sum))) ∧
    (m.kind = .mma → x.integer = false → ∀ i j, i < 16 → j < 16 → y.elem i j =
      BitVec.ofNat 34 (blockSum (fpAcc.value (x.elem i j).toNat ::
        (mmaPairs m i j).map fun p => scaledTerm m.fmt p.1 p.2))) ∧
    (m.kind = .mmas → metaBad m.c (fragN m.fmt) = false → ∀ i j, i < 16 → j < 16 → y.elem i j =
      blockElem m.fmt x.integer (x.elem i j) (mmasPairs m i j)) ∧
    (m.kind = .mmas → metaBad m.c (fragN m.fmt) = true → y = x) ∧
    (m.kind = .mzero → y.integer = fmtIsInt (fmtField m.fmt 8) ∧ ∀ i j, i < 16 → j < 16 → y.elem i j = 0) ∧
    (m.kind = .mwr → ∀ i j, i < 16 → j < 16 → y.elem i j = writeElem m (tget 0 m.a (64 * (i / 4) + 16 * (i % 4) + j))) ∧
    (m.kind = .mrd → y = x ∧ ∀ q, tfind s.replies m.reply = some q → ∃ q', tfind t.replies m.reply = some q' ∧
      q'.ready = true ∧ ∀ k l, k < 4 → l < 64 →
        tget 0 q'.vals (64 * k + l) = readElem m x.integer (x.elem (4 * k + l / 16) (l % 16))) ∧
    ((m.kind = .mma ∨ (m.kind = .mmas ∧ metaBad m.c (fragN m.fmt) = false)) → ∀ w, tfind s.warps m.warp = some w →
      ∃ y, tfind t.warps m.warp = some y ∧ (y.flag m.flag).state = 1)))

/-- TSET (R186) waits with the record's address and holds later engine issue; TRAV (R187) starts a walk of the active
lanes with its table, spill base and seeds, and binds its flag, with one active at least. -/
def Obligations.TraversalIssues : Prop := ∀ (f : Syl) (s : State) (w : Warp) (h : Handle), Issuing s w →
  let x := s.issuer w
  let act := x.r.active f.g1 f.g2
  (act = 0 → NoEffect s w (exec (.tset f) s)) ∧
  (act ≠ 0 → Answers (exec (.tset f) s) fun t => ∃ q : TSet,
    t = { s with warps := tput s.warps s.cur { x with holdEng := some s.nextId }, tsets := tput s.tsets s.nextId q,
                 nextId := s.nextId + 1 } ∧
    q.warp = s.cur ∧ q.table = f.d.toNat ∧ q.addr = srcA64 x s f (lowLane x.r.group.mask)) ∧
  (act ≠ 0 → handleOf s w f.b.toNat = some h → Answers (exec (.trav f) s) fun t => SameBytes s t ∧ ∃ k : Walk,
    tfind t.walks s.nextId = some k ∧ k.warp = s.cur ∧ k.table = f.a.toNat ∧ k.handle = h.gen ∧ k.flag = f.e.toNat ∧
    k.lanes = act ∧ k.walking = act ∧ k.calling = 0 ∧ k.spill = srcC64 x s f (lowLane x.r.group.mask) ∧
    (f.op64 = true → ∀ l, act.getLsbD l → tfind k.seed l = some (src64 x s.issue f.e f.d.toNat l)) ∧
    (f.op64 = false → k.seed = []) ∧
    ∃ y, tfind t.warps s.cur = some y ∧ (y.flag f.e.toNat).bound = true ∧ (y.flag f.e.toNat).state = 0)

/-- DPUSH (R189) outside a walk puts NODE, LEVEL and AUX of each active lane on top of its deck with CMASK 0, and no
other deck changes; the entries wait, with the decks as they are, while an earlier cut or push of theirs is to act or
the allocation's zero fill is not over (R254). DDEPTH (R192) gives the number of entries of each active lane's deck,
those that wait for a spill among them, at once or when nothing earlier is left to act on one of these decks. DCUT
(R190, R302) with every active lane's deck wholly on chip and nothing earlier to wait for: the lanes are cut one after
the other in rising order, as the second part says of each, and their counts and records wait to be written. A lane cut
at a level k: its entries with CMASK 0 and a level of at most k leave its deck, the others stay in their order; its
count is their number, and its record holds them in ascending level, within a level in pop order, under a header with
the count, the table, the level cut at, the warp's identity, the lane and TIME. Other lanes' decks stay. DDEAL (R191) by
a warp that runs no task reserves a record of the cactus, and its status comes later. -/
def Obligations.DeckOperations : Prop :=
  (∀ (f : Syl) (s : State) (w : Warp) (h : Handle), Issuing s w →
  let x := s.issuer w
  let act := x.r.active f.g1 f.g2
  let waits := fun l => deckWaits s w.team h.gen s.nextId l
  let fields := fun (e : Entry) (l : Nat) => entryNode e = (srcA64 x s f l) &&& 0x00FFFFFFFFFFFFFF ∧
    entryLevel e = (srcC x s f l).extractLsb' 0 8 ∧ entryMask e = 0 ∧ entryAux e = srcB x s f l
  (act = 0 → NoEffect s w (exec (.dpush f) s) ∧ NoEffect s w (exec (.ddepth f) s)) ∧
  (act ≠ 0 → deckHandle s w f.a.toNat = some h → findHandle s w.team h.gen = some h →
    ((∀ l, act.getLsbD l → waits l = false) → Answers (exec (.ddepth f) s) fun t => SameBytes s t ∧ t.teams = s.teams ∧
      Replies s t w f.d.toNat 1 false act true fun _ k => BitVec.ofNat 32 ((h.deckOf k).top + pendingEntries s h.gen k)) ∧
    (∀ l, act.getLsbD l → waits l = true → Answers (exec (.ddepth f) s) fun t => SameBytes s t ∧ t.teams = s.teams ∧
      Replies s t w f.d.toNat 1 false act false (fun _ _ => 0) ∧
      ∃ q, tfind t.replies s.nextId = some q ∧ q.req = some (.depth h.gen act))) ∧
  (act ≠ 0 → deckHandle s w f.d.toNat = some h → s.walks = [] → findHandle s w.team h.gen = some h →
    ((∀ l, act.getLsbD l → waits l = false ∧ (h.deckOf l).top - (h.deckOf l).low < 64) →
      Answers (exec (.dpush f) s) fun t => SameBytes s t ∧ tfind t.warps s.cur = some x ∧ t.pushes = s.pushes ∧ ∃ h',
        findHandle t w.team h.gen = some h' ∧ (∀ k, act.getLsbD k = false → h'.deckOf k = h.deckOf k) ∧
        ∀ l, act.getLsbD l → h'.deckOf l = { h.deckOf l with top := (h.deckOf l).top + 1 } ∧ fields (h'.entry l (h.deckOf l).top) l) ∧
    ((∀ l, act.getLsbD l → waits l = true) → Answers (exec (.dpush f) s) fun t => ∃ q : DeckPush,
      t = { s.setWarp s.cur x with pushes := tput s.pushes s.nextId q, nextId := s.nextId + 1 } ∧ q.warp = s.cur ∧ q.team = w.team ∧
      q.handle = h.gen ∧ ∀ l, act.getLsbD l → ∃ e, tfind q.entries l = some [e] ∧ fields e l))) ∧
  ((∀ (f : Syl) (s : State) (w : Warp), Issuing s w →
    let x := s.issuer w
    let act := x.r.active f.g1 f.g2
    let s1 := s.setWarp s.cur x
    (act = 0 → NoEffect s w (exec (.dcut f) s) ∧ NoEffect s w (exec (.ddeal f) s)) ∧
    (∀ h : Handle, act ≠ 0 → deckHandle s w f.c.toNat = some h → afterDone s1 (afterOf s1 s.cur x.r.group.mask) = true →
      slotOpen s w.part = true → act &&& ~~~chipLanes s1 w.team h.gen = 0 → ∃ q : Cut,
        q.warp = s.cur ∧ q.cluster = clusterOf s.cur ∧ q.who = x.who ∧ q.team = w.team ∧ q.handle = h.gen ∧ q.todo = 0 ∧ q.tables = w.walked ∧
        q.part = w.part ∧
        (∀ l, act.getLsbD l → tget 0 q.addr l = srcA64 x s f l ∧ tget 0 q.depth l = srcB x s f l) ∧
        let c := (laneList act).foldl (cutLane q) { s := s1, counts := [], records := [], bad := 0, cause := 0, va := 0 }
        ∀ z, c.bad = 0 → tfind c.s.warps s.cur = some z → Answers (exec (.dcut f) s) fun t => ∃ y r,
          t = { c.s with warps := tput c.s.warps s.cur y, replies := tput c.s.replies c.s.nextId r,
                         cuts := tput c.s.cuts c.s.nextId { q with records := c.records }, nextId := c.s.nextId + 1 } ∧
          y = { z with r := y.r } ∧ Awaits z.r y.r c.s.nextId f.d.toNat 1 act ∧ r.warp = s.cur ∧ r.dest = f.d.toNat ∧ r.count = 1 ∧
          r.lanes = act ∧ r.ready = false ∧ r.vals = c.counts) ∧
    (∀ a, act ≠ 0 → w.isTask = false → cactusFit s (clusterOf s.cur) 64 = some a →
      (xlateRange (clusterOf s.cur) x.who .write s1 a 64).1 = s1 →
      Answers (exec (.ddeal f) s) fun t => SameBytes s t ∧ Replies s t w f.d.toNat 1 true x.r.group.mask false (fun _ _ => 0) ∧
        ∃ q : Deal, tfind t.deals s.nextId = some q ∧ q.record = BitVec.ofNat 64 a ∧
          q.seg = srcA64 x s f (lowLane x.r.group.mask) ∧ q.entry = srcB64 x s f (lowLane x.r.group.mask) ∧ q.parent = none)) ∧
  ∀ (q : Cut) (c : CutRun) (l : Nat) (h : Handle) (s' : State) (ps : List (Nat × Nat)), l < 64 → findHandle c.s q.team q.handle = some h →
    (h.deckOf l).low = 0 → (h.deckOf l).top ≤ 64 →
    let k := (tget 0 q.depth l).toNat
    let es := (List.range (h.deckOf l).top).map fun i => h.entry l i
    let goes := fun e : Entry => entryMask e == 0 && decide ((entryLevel e).toNat ≤ k)
    let cut := es.filter goes
    let kept := es.filter fun e => !goes e
    xlateRange q.cluster q.who .write c.s (tget 0 q.addr l).toNat (64 + 16 * cut.length) = (s', .ok ps) →
    let c' := cutLane q c l
    c'.bad = c.bad ∧ tget 0 c'.counts l = BitVec.ofNat 32 cut.length ∧ (∀ j, j ≠ l → tget 0 c'.counts j = tget 0 c.counts j) ∧
    (∃ h', findHandle c'.s q.team q.handle = some h' ∧ (h'.deckOf l).low = 0 ∧ (h'.deckOf l).top = kept.length ∧
      (∀ i e, kept[i]? = some e → h'.entry l i = e) ∧
      ∀ j, j < 64 → j ≠ l → h'.deckOf j = h.deckOf j ∧ ∀ i, h'.entry j i = h.entry j i) ∧
    ∃ (r : List Byte) (es' : List Entry), tfind c'.records l = some (ps, r) ∧ r.length = 64 + 16 * cut.length ∧ es'.Perm cut ∧
      (es'.map fun e => (entryLevel e).toNat).Pairwise (· ≤ ·) ∧
      (∀ v, es'.filter (fun e => entryLevel e == v) = (cut.filter fun e => entryLevel e == v).reverse) ∧
      (∀ i e, es'[i]? = some e → recField r (64 + 16 * i) 16 = e.toNat) ∧
      recField r 0 4 = cut.length ∧ recField r 4 1 = tget 0xFF q.tables l % 256 ∧ recField r 5 1 = min k 255 ∧
      recField r 8 4 = identOf q.warp q.part % 2 ^ 32 ∧ recField r 0xC 1 = l ∧ recField r 0x10 8 = timeOf s' (dieOf q.warp) % 2 ^ 64)

/-- TRET (R188, R303) takes the lane out of its call. From a leave or prune call its walk ends exactly when bit 0 of the
verdict is set. From an enter call, with no earlier push of the lane or cut of its deck to wait for, it walks on: the
verdict under the mask of present children selects those to visit; with none selected no deck changes, else the held
entry goes back on the deck open, with them as its CMASK, and the children follow, the highest first, one level deeper
(but no deeper than 255), with CMASK 0 and the AUX that `.aux` gives, else the parent's. A lane in no call is left
alone. -/
def Obligations.TraversalReturn : Prop := ∀ (f : Syl) (s : State) (w : Warp) (l : Nat), Issuing s w → l < 64 →
  let x := s.issuer w
  x.r.active f.g1 f.g2 = laneBit l →
  (callOf s s.cur x l = none → NoEffect s w (exec (.tret f) s)) ∧
  (∀ id k q, callOf s s.cur x l = some id → tfind s.walks id = some k → k.walking.getLsbD l = true →
    tfind k.held l = some q → q.call ≠ 0 →
    Answers (exec (.tret f) s) fun t => SameBytes s t ∧ ∃ k', tfind t.walks id = some k' ∧ k'.calling.getLsbD l = false ∧
      tfind k'.held l = none ∧ (k'.walking.getLsbD l = !(srcA x s f l).getLsbD 0) ∧
      ∀ j, j < 64 → j ≠ l → k'.walking.getLsbD j = k.walking.getLsbD j ∧ k'.calling.getLsbD j = k.calling.getLsbD j) ∧
  (∀ id k q h, callOf s s.cur x l = some id → tfind s.walks id = some k → k.walking.getLsbD l = true →
    tfind k.held l = some q → q.call = 0 → findHandle s k.team k.handle = some h → tfind k.pend l = none →
    deckWaits s k.team k.handle s.nextId l = false →
    (s.walks.find? fun e => e.2.warp == s.cur && e.2.handle == k.handle && e.2.walking.getLsbD l) = some (id, k) →
    let m := srcA x s f l &&& q.mask
    let kids := (List.range 32).reverse.filter fun i => m.getLsbD i
    let top := (h.deckOf l).top
    let aux := if f.op64 then srcB x s f l else q.aux
    top + 1 + kids.length ≤ 4160 → top + 1 + kids.length ≤ (h.deckOf l).low + 64 →
    Answers (exec (.tret f) s) fun t => SameBytes s t ∧ ∃ k', tfind t.walks id = some k' ∧ k'.calling.getLsbD l = false ∧
      tfind k'.held l = none ∧ k'.walking = k.walking ∧
      (∀ j, j < 64 → j ≠ l → k'.calling.getLsbD j = k.calling.getLsbD j) ∧
      (m = 0 → t.teams = s.teams ∧ t.oldHandles = s.oldHandles) ∧
      (m ≠ 0 → ∃ h', findHandle t k.team k.handle = some h' ∧
        h'.deckOf l = { h.deckOf l with top := top + 1 + kids.length } ∧ (∀ j, j ≠ l → h'.deckOf j = h.deckOf j) ∧
        (let e := h'.entry l top
         entryNode e = q.node &&& 0x00FFFFFFFFFFFFFF ∧ entryLevel e = q.level ∧ entryMask e = m ∧ entryAux e = q.aux) ∧
        ∀ b i, (b, i) ∈ kids.zipIdx →
          let e := h'.entry l (top + 1 + i)
          entryNode e = q.kids.getD b 0 &&& 0x00FFFFFFFFFFFFFF ∧ (entryLevel e).toNat = min 255 (q.level.toNat + 1) ∧
            entryMask e = 0 ∧ entryAux e = aux))

/-- CLAIM and OBJECT (R193 to R195). A claim binds its flag and travels with its key, its value and the accesses of its
active lanes that it releases (R262), under its own PC and syllable (R339); an unknown group, or a warp that is no
member of it, gets an error outcome. An objection travels with its number and awaits its status; the status is 3 at once
where the warp is no member. For a group of another device (R394) the claim waits to leave and the objection leaves.
CLPOLL and CLREAD (R195, R196) in a group of this device. A poll takes the oldest proposal of the member's inbox, or
gives 0xFFFFFFFF where it is empty; a read gives 0 with the number and value committed for the key, 1 where none is, and
2 where the warp is no member. CLGRP (R193, R310) waits for its result, which RESULT_DELIVERY brings in a calendar slot
of the warp's partition (R291), on any descriptor. Status 0 gives a new group, of the lowest free number and of the
warp's partition, its word with bit 31 and the device for a group across devices; 1, 2 or 3 comes with the word
0xFFFFFFFF and makes none, 3 where the descriptor cannot be read. No byte of memory below L2 changes. -/
def Obligations.ClaimOperations : Prop :=
  (∀ (f : Syl) (s : State) (w : Warp), Issuing s w →
  let x := s.issuer w
  let l := lowLane x.r.group.mask
  let act := x.r.active f.g1 f.g2
  let released := fun rel : Release => rel.warp = s.cur ∧ rel.act = act ∧ rel.pc = s.issue.pc ∧ rel.syl = encode (.claim f)
  (act = 0 → NoEffect s w (exec (.claim f) s) ∧ NoEffect s w (exec (.object f) s)) ∧
  (act ≠ 0 → Answers (exec (.claim f) s) fun t => ∃ m : ClaimMsg,
    t = { s with warps := tput s.warps s.cur (x.bindFlag f.e.toNat s.nextId), cmsgs := tput s.cmsgs (s.nextId + 1) m,
                 nextId := s.nextId + 2 } ∧
    (groupName s w.part (srcA x s f l) = .invalid → m = .outcome (.warp s.cur f.e.toNat) 0x0B9) ∧
    (∀ g, groupName s w.part (srcA x s f l) = .remote g → ∃ rel : Release, released rel ∧
      m = .claim g 0 (srcB x s f l) (srcC64 x s f l) 0 s.cur f.e.toNat rel) ∧
    ∀ g, groupName s w.part (srcA x s f l) = .here g →
      (memberOf s s.cur w.part g = none → m = .outcome (.warp s.cur f.e.toNat) 0x0B9) ∧
      ∀ k, memberOf s s.cur w.part g = some k → ∃ rel : Release, released rel ∧
        m = .claim g (groupId s g) (srcB x s f l) (srcC64 x s f l) k s.cur f.e.toNat rel) ∧
  (act ≠ 0 → Answers (exec (.object f) s) fun t => SameBytes s t ∧
    (groupName s w.part (srcA x s f l) = .invalid →
      Replies s t w f.d.toNat 1 true x.r.group.mask true (fun _ _ => 3) ∧ t.cmsgs = s.cmsgs) ∧
    (∀ g, groupName s w.part (srcA x s f l) = .remote g → Replies s t w f.d.toNat 1 true x.r.group.mask false (fun _ _ => 0) ∧
      t.outbox = s.outbox ++ [.objection (g / 2 ^ 16 % 2 ^ 8) (g % 4096) (srcB x s f l).toNat (s.nextId + 1)]) ∧
    ∀ g, groupName s w.part (srcA x s f l) = .here g →
      (memberOf s s.cur w.part g = none →
        Replies s t w f.d.toNat 1 true x.r.group.mask true (fun _ _ => 3) ∧ t.cmsgs = s.cmsgs) ∧
      ∀ k, memberOf s s.cur w.part g = some k →
        Replies s t w f.d.toNat 1 true x.r.group.mask false (fun _ _ => 0) ∧
        ∃ pc syl, t.cmsgs = tput s.cmsgs (s.nextId + 1) (.object g (groupId s g) (srcB x s f l).toNat k s.cur s.nextId pc syl x.r.group.mask))) ∧
  (∀ (f : Syl) (s : State) (w : Warp), Issuing s w →
  let x := s.issuer w
  let l := lowLane x.r.group.mask
  let act := x.r.active f.g1 f.g2
  let first := fun (t : State) (n : Nat) => ∃ val : Nat → Nat → Word, Replies s t w f.d.toNat 4 true x.r.group.mask true val ∧
    ∀ k, val 0 k = BitVec.ofNat 32 n
  let all := fun (t : State) (a b : Nat) (v : DWord) =>
    Replies s t w f.d.toNat 4 true x.r.group.mask true fun k _ =>
      match k with
      | 0 => BitVec.ofNat 32 a
      | 1 => BitVec.ofNat 32 b
      | 2 => v.extractLsb' 0 32
      | _ => v.extractLsb' 32 32
  (act = 0 → NoEffect s w (exec (.clpoll f) s) ∧ NoEffect s w (exec (.clread f) s)) ∧
  (∀ g m q, act ≠ 0 → groupName s w.part (srcA x s f l) = .here g → memberOf s s.cur w.part g = some m →
    tfind s.cgroups g = some q → q.cross = false →
    (Answers (exec (.clpoll f) s) fun t => SameBytes s t ∧
      (tget [] s.inboxes (memberKey g m) = [] → first t 0xFFFFFFFF) ∧
      ∀ n (k : Word) (v : DWord) rest, tget [] s.inboxes (memberKey g m) = (n, k, v) :: rest →
        (Replies s t w f.d.toNat 4 true x.r.group.mask true fun j _ =>
          match j with
          | 0 => BitVec.ofNat 32 n
          | 1 => k
          | 2 => v.extractLsb' 0 32
          | _ => v.extractLsb' 32 32) ∧ tget [] t.inboxes (memberKey g m) = rest) ∧
    (openOn s g (srcB x s f l) = none → Answers (exec (.clread f) s) fun t => SameBytes s t ∧
      (∀ n v, tfind s.committed (groupKey g (srcB x s f l).toNat) = some (n, v) → all t 0 n v) ∧
      (tfind s.committed (groupKey g (srcB x s f l).toNat) = none → first t 1))) ∧
  (∀ g, act ≠ 0 → groupName s w.part (srcA x s f l) = .here g → memberOf s s.cur w.part g = none →
    (Answers (exec (.clread f) s) fun t => SameBytes s t ∧ first t 2) ∧
    (Answers (exec (.clpoll f) s) fun t => SameBytes s t ∧ first t 0xFFFFFFFE))) ∧
  ((∀ (f : Syl) (s : State) (w : Warp), Issuing s w →
    let x := s.issuer w
    let act := x.r.active f.g1 f.g2
    (act = 0 → NoEffect s w (exec (.clgrp f) s)) ∧
    (act ≠ 0 → Answers (exec (.clgrp f) s) fun t => SameBytes s t ∧ t.cgroups = s.cgroups ∧
      Replies s t w f.d.toNat 2 true x.r.group.mask false (fun _ _ => 0) ∧
      ∃ q, tfind t.replies s.nextId = some q ∧ q.req = some (.group (srcA64 x s f (lowLane x.r.group.mask)).toNat w.level))) ∧
  ∀ (s : State) (id : Nat) (q : Reply) (w : Warp) (va : Nat) (lv : Level), tfind s.replies id = some q → q.req = some (.group va lv) →
    tfind s.warps q.warp = some w → OneSubject s id → q.count = 2 →
    (slotOpen s w.part = false → exec (.resultDelivery id) s = .next s) ∧
    (slotOpen s w.part = true → q.scalar = true → 192 ≤ q.dest → q.dest < 239 → w.r.pending (sKey (q.dest - 192)) = id + 1 →
      w.r.pending (sKey (q.dest - 191)) = id + 1 →
      Answers (exec (.resultDelivery id) s) fun t => t.mem = s.mem ∧ tfind t.replies id = none ∧ ∃ y status word,
        tfind t.warps q.warp = some y ∧ y.r.pending (sKey (q.dest - 192)) = 0 ∧ y.r.pending (sKey (q.dest - 191)) = 0 ∧
        y.r.readS (q.dest - 192) = BitVec.ofNat 32 status ∧ y.r.readS (q.dest - 191) = BitVec.ofNat 32 word ∧
        (status = 0 → ∃ n g, tfind s.cgroups n = none ∧ (∀ m, m < n → (tfind s.cgroups m).isSome = true) ∧
          t.cgroups = tput s.cgroups n g ∧ g.part = w.part ∧ g.next = 0 ∧ g.members.Nodup ∧ 0 < g.members.length ∧ g.window ≤ 1000000 ∧
          word = if g.cross then 2 ^ 31 + Config.deviceNumber.toNat * 2 ^ 16 + n else n) ∧
        (status ≠ 0 → status ≤ 3 ∧ word = 0xFFFFFFFF ∧ t.cgroups = s.cgroups) ∧
        ∀ e, (readRecord (clusterOf q.warp) { w.who with level := lv } s va 64).2 = .error e → status = 3))

/-! ### The control slot -/

/-- The end of a bundle (R13, R43, R199, R204, R207): a NOP, and any guarded operation that no lane of the group passes,
only end the bundle, and nothing but the warp changes. What waits for the end of a bundle: with no cause and no single
step the state stays; a cause is taken as a trap at the warp time at which the next bundle is due, where that is the
next one and a slot of the partition is open, else the warp keeps it until then (R227, R291, R335, R365, R366), unless
the warp has ended. A stepped bundle raises 0x121; where it holds a TRAP too, the step is kept for the return from that
trap's handler (log 84, the model's inference). -/
def Obligations.BundleEnds : Prop :=
  (∀ (f : Ctl) (s : State) (w : Warp), Issuing s w →
  OnlyPasses s w (exec (.nop f) s) ∧
  ((s.issuer w).r.active f.g1 f.g2 = 0 → ∀ i ∈ guardedCtl f, OnlyPasses s w (exec i s)) ∧
  ∃ y, s.past w = s.setWarp s.cur y ∧ Moved s (s.issuer w) y) ∧
  (∀ (u : State) (x y : Warp), u.curWarp = some y →
  (u.issue.trap = none → (pdReg u 0x1A0 x.part (dieOf u.cur) 0).getLsbD 0 = false → u.softTrap x = u) ∧
  (y.ended = true → u.softTrap x = u) ∧
  ∀ cause id, id < 2 ^ 16 → y.ended = false →
    u.issue.trap = some (cause * 2 ^ 16 + id) ∨ (u.issue.trap = none ∧ steps u x = true ∧ cause = 0x121 ∧ id = 0) →
    let kept := steps u x = true ∧ cause ≠ 0x121 ∧ cause ≠ 0x122
    let y' := if kept then { y with stepped := some u.issue.pc } else y
    let done := { u.issue with trap := none }
    let now := y.r.due ≤ u.issue.t + 1 ∧ writesShut u y.part = false
    let info : TrapInfo := { cause := cause, id := id, pc := u.issue.pc.toNat, lanes := x.r.group.mask, va := 0, reasons := 0 }
    let v := if kept then u.setWarp u.cur y' else u
    (now → u.softTrap x = { takeTrapAt v u.cur y.r.due info with issue := done }) ∧
    let z := { y' with soft := some (cause * 2 ^ 16 + id, u.issue.pc, x.r.group.mask) }
    (¬ now → u.softTrap x = { u with issue := done, warps := tput u.warps u.cur z }))

/-- PREP and PREPI (R203): the B register of each active lane is written at once, bits [63:56] zero; `prep.get` gives a
register pair the value of the lane, an S pair that of the lowest active lane. -/
def Obligations.BranchRegisters : Prop := ∀ (f : Ctl) (s : State) (w : Warp), Issuing s w →
  let x := s.issuer w
  let act := x.r.active f.g1 f.g2
  let writes := fun (i : Instr) (val : Nat → DWord) => Changes s w (exec i s) fun y z =>
    z = { y with r := { y.r with b := z.r.b } } ∧ ∀ b l, l < 64 → z.r.readB b l =
      if b = f.bits 29 3 ∧ act.getLsbD l = true then val l &&& 0x00FFFFFFFFFFFFFF else y.r.readB b l
  writes (.prepi f) (fun _ => s.issue.pc + 32 * (f.imm.extractLsb' 0 29).signExtend 64) ∧
  (f.prepMode = 0 → writes (.prep f) fun l =>
    s.issue.pc + 32 * ((f.imm.extractLsb' 0 27).signExtend 64 + (src32 x s.issue 0 f.a.toNat l).signExtend 64)) ∧
  (f.prepMode = 1 → writes (.prep f) fun l => src64 x s.issue 0 f.a.toNat l) ∧
  (1 < f.prepMode → act = 0 → OnlyPasses s w (exec (.prep f) s)) ∧
  (1 < f.prepMode → act ≠ 0 → Changes s w (exec (.prep f) s) fun y z =>
    if isV f.a.toNat = true then CtlResult y z f.a.toNat 2 act s.issue.t fun l => x.r.readB (f.bits 29 3) l
    else CtlResult y z f.a.toNat 2 (laneBit 0) s.issue.t fun _ => x.r.readB (f.bits 29 3) (lowLane act))

/-- BRA, BRD, CALL and RET (R204, R206): the transfer waits for two delay bundles, with its lanes and their targets as
they stand; bits [63:56] and [4:0] of a target are zero in a PC. CALL and RET move the depth, and CALL writes B7 of the
group. -/
def Obligations.Transfers : Prop := ∀ (f : Ctl) (i : Instr) (s : State) (w : Warp), i ∈ [Instr.bra f, .brd f, .call f, .ret f] →
  Issuing s w →
  let x := s.issuer w
  let act := x.r.active f.g1 f.g2
  let call := i = .call f ∧ act ≠ 0
  let ret := i = .ret f ∧ act ≠ 0
  let lanes := if i = .brd f then act else if act = 0 then 0 else x.r.group.mask
  let target := fun l => if i = .ret f then x.r.readB 7 l
    else if f.a = 0 then s.issue.pc + 32 * f.imm.signExtend 64 else x.r.readB (f.a.toNat % 8) l
  Changes s w (exec i s) fun y z => ∃ q : Transfer, q.left = 2 ∧ q.lanes = lanes ∧
    (∀ l, lanes.getLsbD l = true → tget 0 q.target l = target l &&& 0x00FFFFFFFFFFFFE0) ∧
    z = { y with r := { y.r with groups := y.r.groups.set y.r.cur { y.r.group with pending := some q }, b := z.r.b, rd := z.r.rd } } ∧
    (call → z.r.rd = x.r.rd + 1) ∧ (ret → z.r.rd = x.r.rd - 1) ∧ (¬ call → ¬ ret → z.r.rd = x.r.rd) ∧
    ∀ b l, l < 64 → (call ∧ b = 7 ∧ x.r.group.mask.getLsbD l = true → z.r.readB b l = (s.issue.pc + 96) &&& 0x00FFFFFFFFFFFFFF) ∧
      (¬ (call ∧ b = 7 ∧ x.r.group.mask.getLsbD l = true) → z.r.readB b l = x.r.readB b l)

/-- JSET (R209), JOIN (R210) and KEND (R219). A JOIN arrives with its whole group; it waits, or it merges all the groups
that wait at the join register into one after JPC, which counts its bundles anew (R294). EXIT (R211): the active lanes
have exited and no group holds them; the joins that expect them take their arrival; the warp has ended when no lane of
it is left. Where they were all that a join still awaited, the groups that wait at it merge into one after JPC (R210),
due in the next warp cycle. -/
def Obligations.JoinsAndExit : Prop :=
  (∀ (f : Ctl) (s : State) (w : Warp), Issuing s w → (s.issuer w).r.active f.g1 f.g2 ≠ 0 →
  let x := s.issuer w
  let act := x.r.active f.g1 f.g2
  let j := f.a.toNat
  let at_ := (s.issue.pc + 32 * f.imm.signExtend 64) &&& 0x00FFFFFFFFFFFFE0
  let sets := fun (y z : Warp) (q : Join) => z.r.joinReg j = q ∧ ∀ k, k ≠ j → z.r.joinReg k = y.r.joinReg k
  (Changes s w (exec (.jset f) s) fun y z => z = { y with r := { y.r with j := z.r.j } } ∧
    sets y z { expect := act, arrived := 0, jpc := at_, valid := true }) ∧
  (Changes s w (exec (.join f) s) fun y z =>
    let q := y.r.joinReg j
    let arrived := q.arrived ||| x.r.group.mask
    let gs := (y.waiting (.join j)).r.groups
    if q.valid = true ∧ q.expect &&& ~~~arrived = 0 then
      z = { y with burst := 0, r := { y.r with j := z.r.j, groups := z.r.groups, cur := z.r.cur } } ∧
      sets y z { q with arrived := arrived, valid := false } ∧
      (z.r.group.pc = (q.jpc + 32) &&& 0x00FFFFFFFFFFFFE0 ∧ z.r.group.wait = .ready ∧ z.r.group.pending = none ∧ z.r.group.last = gs.any (fun g => g.wait = .join j && g.last) ∧
        ∀ l, z.r.group.mask.getLsbD l = true ↔ ∃ g ∈ gs, g.wait = .join j ∧ g.mask.getLsbD l = true) ∧
      (∀ g ∈ z.r.groups, g.wait ≠ .join j) ∧ ∀ g ∈ gs, g.wait ≠ .join j → g.stays = true → g ∈ z.r.groups
    else z = { y.waiting (.join j) with burst := if q.valid then y.burst else 0, r := { (y.waiting (.join j)).r with j := z.r.j } } ∧
      sets y z { q with arrived := arrived }) ∧
  (Changes s w (exec (.kend f) s) fun y z => (y.loop = none → z = y) ∧ ∀ q, y.loop = some q →
    z = { y with loop := some { q with iter := q.iter + 1, closed := true },
                 r := { y.r with groups := y.r.groups.set y.r.cur { y.r.group with pc := if q.iter + 1 < q.trip then q.body else q.epi } } })) ∧
  (∀ (f : Ctl) (s : State) (w y : Warp), Issuing s w → (s.issuer w).r.active f.g1 f.g2 ≠ 0 →
  (s.past w).curWarp = some y →
  let act := (s.issuer w).r.active f.g1 f.g2
  Leaves s w (exec (.exit f) s) fun u => ∃ z, u.curWarp = some z ∧
    z.r.exited = y.r.exited ||| act ∧ (∀ g ∈ z.r.groups, g.mask &&& act = 0) ∧
    (∀ j, j < 8 → (y.r.joinReg j).valid = true → act &&& (y.r.joinReg j).expect &&& ~~~(z.r.joinReg j).arrived = 0) ∧
    (z.ended = true ↔ y.ended = true ∨ y.enabled &&& ~~~(y.r.exited ||| act) = 0) ∧ z.r.v = y.r.v ∧ z.r.s = y.r.s ∧
    (∀ j, j < 8 → let q := y.r.joinReg j
      q.valid = true → act &&& q.expect ≠ 0 → q.expect &&& ~~~(q.arrived ||| act) = 0 →
      (∃ g ∈ y.r.groups, g.wait = .join j ∧ g.mask &&& ~~~act ≠ 0) →
      (z.r.joinReg j).valid = false ∧ (∀ g ∈ z.r.groups, g.wait ≠ .join j) ∧
      ∃ g ∈ z.r.groups, g.pc = (q.jpc + 32) &&& 0x00FFFFFFFFFFFFE0 ∧ g.wait = .ready ∧ g.pending = none ∧ g.soon = some (s.issue.t + 1) ∧
        ∀ l, l < 64 → (g.mask.getLsbD l = true ↔
          ∃ h ∈ y.r.groups, h.wait = .join j ∧ h.mask.getLsbD l = true ∧ act.getLsbD l = false)) ∧
    ((s.issuer w).r.group.mask &&& ~~~act = 0 → ∀ k, z.r.group.soon = some k → z.r.due = k))

/-- BAR and BARA (R212): the group's lanes arrive in the present phase, whose count the first arrival fixes; BAR waits
there. Then the phase completes once the arrived warps and the exited ones number at least the count: the next phase has
no arrivals, and the groups that wait for the completed one are ready when the cycle is over. A warp counts once the
fences that it had issued have completed (R263). Of the warps only what they come after may change. -/
def Obligations.Barriers : Prop := ∀ (f : Ctl) (i : Instr) (s : State) (w : Warp) (t : Team), i ∈ [Instr.bar f, .bara f] →
  Issuing s w → (s.issuer w).r.active f.g1 f.g2 ≠ 0 → tfind s.teams w.team = some t →
  let b := f.bits 0 5
  let x := t.bar b
  Leaves s w (exec i s) fun u => ∃ (v : State) (y : Warp) (a : Barrier) (r : Team),
    (s.past w).curWarp = some y ∧
    v = { s.past w with teams := tput s.teams w.team (t.setBar b a),
                        warps := tput (s.past w).warps s.cur (if i = .bar f then y.waiting (.barrier b x.phase) else y) } ∧
    a.phase = x.phase ∧ a.arrived = x.arrived ∧ a.count = (if x.count = 0 then f.bits 8 7 else x.count) ∧
    a.lanes = tput x.lanes w.wid (tget 0 x.lanes w.wid ||| (s.issuer w).r.group.mask) ∧
    (∀ k, k ≠ w.wid → tget [] a.fences k = tget [] x.fences k) ∧
    (∀ n, n ∈ tget [] a.fences w.wid ↔ n ∈ tget [] x.fences w.wid ∨ n ∈ openFences s s.cur) ∧
    tfind u.teams w.team = some r ∧ u.mem = s.mem ∧
    (∀ g z, tfind v.warps g = some z → ∃ z', tfind u.warps g = some z' ∧ z' = { z with saw := z'.saw }) ∧
    let seen := arrivedWarps v w.team (t.setBar b a) b
    if a.count ≠ 0 ∧ a.count ≤ laneCount (seen ||| exitedWarps v t) then
      r = t.setBar b { phase := x.phase + 1, count := 0, arrived := 0, lanes := [], fences := [] } ∧
      ∀ g z, tfind (u.releaseBarriers g).warps g = some z → z.team = w.team → ∀ q ∈ z.r.groups, q.wait ≠ .barrier b x.phase
    else ∃ cover, r = t.setBar b { a with arrived := seen, cover := cover }

/-- The waits of WAITF (R213), YIELD (R214), SLEEP (R216) and TLWAIT (R215). A flag that has left clear, a duration of 0
and a counter that has reached its threshold do not wait; YIELD rests at its resume address. A warp that goes on comes
after what the flags stand for (R265). That TLWAIT looks at the low 56 bits of its address is log 83 (the model's
choice). -/
def Obligations.Waits : Prop := ∀ (f : Ctl) (s : State) (w y : Warp), Issuing s w → (s.issuer w).r.active f.g1 f.g2 ≠ 0 →
  (s.past w).curWarp = some y →
  let x := s.issuer w
  let flags := f.imm.extractLsb' 0 8
  let at_ := (s.issue.pc + 32 * f.imm.signExtend 64) &&& 0x00FFFFFFFFFFFFE0
  let resting := { y with r := { y.r with groups := y.r.groups.set y.r.cur { y.r.group with pc := at_ } } }
  let low := lowLane x.r.group.mask
  let d := f.imm.toNat + (src32 x s.issue 0 f.a.toNat low).toNat
  let now := timeOf s (dieOf s.cur)
  let deadline := if f.bits 3 29 = 0 then none else some (now + 8 * f.bits 3 29)
  let va := joinWords (srcWord x s.issue 0 f.a.toNat 0 low) (srcWord x s.issue 0 f.a.toNat 1 low)
  let th := joinWords (srcWord x s.issue 0 f.a.toNat 2 low) (srcWord x s.issue 0 f.a.toNat 3 low)
  let left := fun n => (x.flag n).state ≠ 0
  ((∀ n, n < 8 → flags.getLsbD n = true → left n) →
    Leaves s w (exec (.waitf f) s) fun u => ∃ z, z = { y with saw := z.saw } ∧
      u = { s.past w with posted := u.posted, warps := tput (s.past w).warps s.cur z }) ∧
  ((∃ n, n < 8 ∧ flags.getLsbD n = true ∧ ¬ left n) → Changes s w (exec (.waitf f) s) fun _ z => z = y.waiting (.flag flags)) ∧
  (¬ left f.a.toNat → Changes s w (exec (.yield f) s) fun _ z => z = resting.waiting (.rest f.a.toNat)) ∧
  (left f.a.toNat → Leaves s w (exec (.yield f) s) fun u => ∃ z, z = { resting with saw := z.saw } ∧
    u = { s.past w with warps := tput (s.past w).warps s.cur z, posted := u.posted }) ∧
  (d = 0 → OnlyPasses s w (exec (.sleep f) s)) ∧
  (d ≠ 0 → Changes s w (exec (.sleep f) s) fun _ z => z = y.waiting (.sleep (now + d))) ∧
  Leaves s w (exec (.tlwait f) s) fun u => ∃ z, u.curWarp = some z ∧
    let v := (s.past w).setWarp s.cur (y.waiting (.timeline deadline va none th (f.bits 0 3)))
    ∀ v' r, translate v (clusterOf s.cur) w.who .read (va.toNat % 2 ^ 56) = (v', r) →
      (∀ k, r = .ok k → isWindow k = false →
        let c := BitVec.ofNat 64 ((v'.combineLine (lineOf k)).counterAt k)
        (0 ≤ (c - th).toInt → z.r.group.wait = .ready ∧
          (f.bits 0 3 < 7 → ∀ l, z.r.group.mask.getLsbD l = true → (z.r.readP (f.bits 0 3)).getLsbD l = true)) ∧
        ((c - th).toInt < 0 → z.r.group.wait = .timeline deadline va (some k) th (f.bits 0 3))) ∧
      (∀ e, r = .fault e → y.ended = false →
        z.r.group.wait = .timeline deadline va none th (f.bits 0 3) ∧ ∃ q ∈ z.faults, q.cause = 0x060 + 4 * e)

/-- FMTS (R32, R221), GROW (R222), SHRINK (R223), SRD (R35, R225) and OVTLD (R226). SRD gives RSTK as the four top ids
of the region stack, and every register of the supervisor and the hypervisor as it stands, a write-only one as 0. What
is in flight to a register that GROW adds or SHRINK releases is discarded but for its latch (log 27, DEDUCED). The
request counters are those of the end of the cluster's previous cycle (R297). -/
def Obligations.WarpState : Prop := ∀ (f : Ctl) (s : State) (w : Warp), Issuing s w → (s.issuer w).r.active f.g1 f.g2 ≠ 0 →
  let x := s.issuer w
  let v := src64 x s.issue 0 f.a.toNat (lowLane x.r.group.mask)
  let n := f.imm.toNat
  let cl := clusterOf s.cur
  let own := s.part w.part
  let kept := fun reg holder => (sregGet s (sregKey reg holder) 0).toNat
  let top := fun i => if x.r.rsdepth ≤ i then 0 else (x.r.rstk.getD i 0xFFFF).toNat
  let gives := fun (i : Instr) (words val : Nat) => Changes s w (exec i s) fun y z =>
    CtlResult y z f.a.toNat words (laneBit 0) s.issue.t fun _ => BitVec.ofNat 64 val
  let cleared := fun (y z : Warp) (lo hi : Nat) =>
    (∀ q, q ∈ z.r.flight ↔ ∃ p ∈ y.r.flight, q = if ∃ k ∈ List.range hi, lo ≤ k ∧ p.dest = .v k then { p with dest := .none } else p) ∧
    z.r.groups = y.r.groups.map fun g => if g.wait = .empty then { g with wait := .ready } else g
  (Changes s w (exec (.fmts f) s) fun y z => ∃ fl, z = { y with r := { y.r with flight := fl } } ∧ Adds y.r.flight fl [.fmt] ∧
    InFlight fl .fmt 3 (fun l => if l = 0 then lowWord v else highWord v) (s.issue.t + 3) (s.issue.t + 4)) ∧
  (n ≤ x.r.allot → gives (.grow f) 1 0) ∧
  (x.r.allot + freeRegs (s.past w) (subOf s.cur) < n → gives (.grow f) 1 1) ∧
  (x.r.allot < n → n ≤ x.r.allot + freeRegs (s.past w) (subOf s.cur) → Changes s w (exec (.grow f) s) fun y z => ∃ m : Warp,
    m = { y with r := { y.r with v := m.r.v, pend := m.r.pend, flight := m.r.flight, groups := m.r.groups, allot := n } } ∧
    cleared y m x.r.allot n ∧ (∀ k l, k < x.r.allot → l < 64 → m.r.readV k l = y.r.readV k l ∧ m.r.pending (vKey k l) = y.r.pending (vKey k l)) ∧
    (∀ k l, x.r.allot ≤ k → k < n → l < 64 → m.r.readV k l = 0 ∧ m.r.pending (vKey k l) = 0) ∧
    CtlResult m z f.a.toNat 1 (laneBit 0) s.issue.t fun _ => 0) ∧
  (Changes s w (exec (.shrink f) s) fun y z =>
    z = { y with r := { y.r with v := z.r.v, pend := z.r.pend, flight := z.r.flight, groups := z.r.groups, allot := n } } ∧
    cleared y z n x.r.allot ∧ (∀ k l, k < n → l < 64 → z.r.readV k l = y.r.readV k l ∧ z.r.pending (vKey k l) = y.r.pending (vKey k l)) ∧
    (∀ k l, n ≤ k → k < x.r.allot → l < 64 → z.r.readV k l = 0 ∧ z.r.pending (vKey k l) = 0)) ∧
  (∀ e ∈ [(0x000, 2, timeOf s (dieOf s.cur)), (0x002, 2, s.issue.t), (0x003, 1, identOf s.cur w.part), (0x004, 1, w.lnid.toNat),
      (0x005, 1, w.teamid.toNat), (0x006, 2, x.r.group.mask.toNat), (0x007, 2, x.r.exited.toNat), (0x008, 1, x.r.groups.length),
      (0x009, 1, w.level.num), (0x00A, 1, x.r.allot), (0x00B, 1, x.r.rd), (0x00C, 2, x.r.fmt.toNat), (0x00E, 1, x.r.rsdepth),
      (0x001, 2, (s.cluster (clusterOf s.cur)).cycle), (0x00F, 2, (s.cluster (clusterOf s.cur)).lreqRead),
      (0x010, 2, (s.cluster (clusterOf s.cur)).rreqRead),
      (0x00D, 2, top 0 + 2 ^ 16 * top 1 + 2 ^ 32 * top 2 + 2 ^ 48 * top 3)],
    n = e.1 → gives (.srd f) e.2.1 e.2.2) ∧
  (∀ k, k < 8 → n = 0x018 + k → gives (.srd f) 1 (flagWord (w.flag k))) ∧
  (∀ e ∈ [(0x120, 2, own.feat.toNat), (0x122, 2, (ovtOf s w.ctx).toNat), (0x130, 2, w.lbase.toNat), (0x131, 2, w.lsize),
      (0x161, 1, keyQuota s w.part (dieOf s.cur) + 2 ^ 16 * tget 0 (s.die (dieOf s.cur)).usedKeys w.part),
      (0x162, 1, (sregGet s (sregKey 0x162 0) 8000).toNat), (0x181, 2, s.elog),
      (0x190, 2, if cl = Config.hvCluster then kept 0x190 0 else own.mode + 2 ^ 8 * w.part), (0x196, 2, (s.cluster cl).freq),
      (0x198, 2, own.emeter), (0x199, 2, (sregGet s (sregKey 0x199 w.part) (BitVec.allOnes 64)).toNat), (0x1A3, 2, evset),
      (0x1A8, 2, kept 0x1A8 cl % 512 + 2 ^ 16 * (tget 0 (s.cluster cl).epoch 0 % 2 ^ 16)),
      (0x1A9, 2, kept 0x1A9 cl % 512 + 2 ^ 16 * (tget 0 (s.cluster cl).epoch 1 % 2 ^ 16)),
      (0x140, 2, kept 0x140 w.ctx), (0x141, 2, kept 0x141 w.ctx), (0x150, 2, kept 0x150 cl), (0x151, 2, kept 0x151 cl),
      (0x160, 1, kept 0x160 w.part), (0x19A, 2, kept 0x19A w.part), (0x180, 2, kept 0x180 0), (0x1E0, 2, kept 0x1E0 0),
      (0x1E1, 2, kept 0x1E1 0), (0x1E4, 2, kept 0x1E4 0), (0x179, 2, 0), (0x1AA, 2, 0), (0x1E2, 2, 0), (0x1E3, 2, 0), (0x1E5, 2, 0)],
    n = e.1 → gives (.srd f) e.2.1 e.2.2) ∧
  (n ∈ [0x170, 0x171, 0x172, 0x173, 0x178, 0x17A, 0x1A0, 0x1A1, 0x1A2, 0x1A4, 0x1A5] →
    gives (.srd f) 2 (kept n (pdHolder w.part (dieOf s.cur)))) ∧
  (∀ k, k < 4 → n = 0x191 + k → gives (.srd f) 2 ((s.sub (subOf s.cur)).permits.getD k 0 + 2 ^ 16 * [256, 192, 128, 128].getD k 0 +
    2 ^ 32 * (permitRates (s.part (clusterPart s cl)).mode).getD k 0)) ∧
  ((0x1B0 ≤ n ∧ n ≤ 0x1C0) ∨ (0x1C8 ≤ n ∧ n ≤ 0x1DA) → gives (.srd f) 2 (tget 0 (s.sub (subOf s.cur)).hist (n - 0x1B0))) ∧
  Rewrites s w (exec (.ovtld f) s) fun u =>
    ovtOf u w.ctx = BitVec.ofNat 64 (v.toNat % 2 ^ 20) ∧
    ∀ k d, k ≠ sregKey 0x122 w.ctx → sregGet u k d = sregGet s k d

/-- SWR (R5, R225): a read-only register takes nothing; a register takes the bits of its map; LBASE and LSIZE are the
warp's; a write that starts a step of the part puts it before whatever comes next (log 6, the model's choice). While
precise memory mode keeps a checkpoint open, what is written can be undone and the step waits (R346; that the step waits
for the newest checkpoint is log 20, the model's inference). LSIZE and CSSIZE keep their bits as written (logs 78 and
97, the model's choice); a write of EBUDGET arms OVER again (log 49, the model's inference); a reserved field of DBGC or
DWATCH refuses the value. -/
def Obligations.SpecialRegisterWrites : Prop := ∀ (f : Ctl) (s : State) (w : Warp), Issuing s w →
  (s.issuer w).r.active f.g1 f.g2 ≠ 0 →
  let x := s.issuer w
  let n := f.imm.toNat
  let v := src64 x s.issue 0 f.a.toNat (lowLane x.r.group.mask)
  let d := dieOf s.cur
  let cl := clusterOf s.cur
  let part := pdHolder w.part d
  let set := fun (key : Nat) (def_ q : DWord) => Rewrites s w (exec (.swr f) s) fun u =>
    sregGet u key def_ = q ∧ ∀ k e, k ≠ key → sregGet u k e = sregGet s k e
  let sets := fun (key lo bits : Nat) => set key 0 (BitVec.ofNat 64 (v.toNat / 2 ^ lo % 2 ^ bits * 2 ^ lo))
  let kept := fun (y z : Warp) => y.precise = false ∨ y.checkpoint = [] → z.checkpoint = y.checkpoint
  let changes := fun (q : Partition) (P : State → Prop) => ∃ y z, (s.past w).curWarp = some y ∧ z = { y with checkpoint := z.checkpoint } ∧
    kept y z ∧ Leaves s w (exec (.swr f) s) fun u =>
      u = { (s.past w).setPart w.part q with sreg := u.sreg, warps := tput (s.past w).warps s.cur z } ∧ P u
  let own := (s.past w).part w.part
  (n ∈ [0x000, 0x001, 0x002, 0x003, 0x004, 0x005, 0x006, 0x007, 0x008, 0x009, 0x00A, 0x00B, 0x00C, 0x00D, 0x00E, 0x00F, 0x010,
        0x122, 0x161, 0x17A, 0x181, 0x191, 0x192, 0x193, 0x194, 0x196, 0x198, 0x1A3, 0x1A5, 0x1E4] ∨ (0x018 ≤ n ∧ n ≤ 0x01F) ∨
      (0x1B0 ≤ n ∧ n ≤ 0x1C0) ∨ (0x1C8 ≤ n ∧ n ≤ 0x1DA) → OnlyPasses s w (exec (.swr f) s)) ∧
  (∀ e ∈ [(0x140, w.ctx, 12, 40), (0x150, cl, 12, 44), (0x151, cl, 0, 28), (0x170, part, 9, 47), (0x171, part, 12, 44),
      (0x172, part, 9, 47), (0x173, part, 12, 44), (0x178, part, 12, 44), (0x180, 0, 12, 48), (0x1A4, part, 12, 49),
      (0x1E0, 0, 12, 44)], n = e.1 → sets (sregKey n e.2.1) e.2.2.1 e.2.2.2) ∧
  (n = 0x120 → changes { own with feat := BitVec.ofNat 64 (v.toNat % 2 ^ 8) } fun u => u.sreg = s.sreg) ∧
  (n = 0x130 → Changes s w (exec (.swr f) s) fun y z =>
    z = { y with lbase := BitVec.ofNat 64 (v.toNat / 2 ^ 8 % 2 ^ 48 * 2 ^ 8), checkpoint := z.checkpoint } ∧ kept y z) ∧
  (n = 0x131 → Changes s w (exec (.swr f) s) fun y z =>
    z = { y with lsize := v.toNat % 2 ^ 18, checkpoint := z.checkpoint } ∧ kept y z) ∧
  (n = 0x162 → set (sregKey n 0) 8000 (BitVec.ofNat 64 (v.toNat % 2 ^ 32))) ∧
  (n = 0x199 → changes { own with reported := false } fun u =>
    sregGet u (sregKey n w.part) (BitVec.allOnes 64) = v ∧ ∀ k e, k ≠ sregKey n w.part → sregGet u k e = sregGet s k e) ∧
  (n = 0x19A → set (sregKey n w.part) 0 (BitVec.ofNat 64 (v.toNat % 4 +
    if v.getLsbD 2 then 0 else 4 * ((sregGet s (sregKey n w.part) 0).toNat / 4 % 2)))) ∧
  (n = 0x1A0 → (v.toNat / 2 % 4 = 3 → OnlyPasses s w (exec (.swr f) s)) ∧ (v.toNat / 2 % 4 ≠ 3 → sets (sregKey n part) 0 34)) ∧
  (n = 0x1A1 → let m := v.toNat / 2 ^ 56 % 2 ^ 5
    (20 < m ∨ v.toNat % 2 ^ 56 % 2 ^ m ≠ 0 → OnlyPasses s w (exec (.swr f) s)) ∧
    (m ≤ 20 → v.toNat % 2 ^ 56 % 2 ^ m = 0 → sets (sregKey n part) 0 61)) ∧
  (∀ e ∈ [(0x141, Instr.tlbinvWrite s.cur v), (0x160, .claimGroupDestroy w.part (v.toNat % 4096)), (0x1A2, .sessionRemap s.cur v),
      (0x1A8, .sketchEventWrite cl 0 v), (0x1A9, .sketchEventWrite cl 1 v), (0x1C7, .histogramClear (subOf s.cur)),
      (0x190, .pmodeWrite v), (0x1E5, if v.getLsbD 0 then .attestQuote v else .attestExtend v)],
    n = e.1 → Starts s w (exec (.swr f) s) e.2) ∧
  (n = 0x179 → Starts s w (exec (.swr f) s) (if v.toNat % 4 = 1 then .pctlRestore s.cur v else .pctlSave s.cur v)) ∧
  (n = 0x1AA → ∃ y, (s.past w).curWarp = some y ∧ Leaves s w (exec (.swr f) s) fun u =>
    let z := { y with dumps := tput y.dumps v.toNat s.issue.pc }
    (y.precise = false ∨ y.checkpoint = [] →
      u = { s.past w with agenda := .sketchDump s.cur v :: s.agenda, warps := tput (s.past w).warps s.cur z }) ∧
    (y.precise = true → y.checkpoint ≠ [] → u.agenda = s.agenda ∧ u.mem = s.mem ∧
      ∃ z' c, u.curWarp = some z' ∧ z' = { z with checkpoint := z'.checkpoint } ∧ z'.checkpoint.getLast? = some c ∧ .sketchDump s.cur v ∈ c.later)) ∧
  (n = 0x1E1 → let goes := v.getLsbD 0 = true ∧ (sregGet s (sregKey n 0) 0).toNat / 2 % 4 ≠ 1
    (goes → Starts s w (exec (.swr f) s) .hvcommitGo) ∧ (¬ goes → OnlyPasses s w (exec (.swr f) s))) ∧
  (n = 0x1E2 → (v.toNat / 2 ^ 52 = 0 → OnlyPasses s w (exec (.swr f) s)) ∧
    (v.toNat / 2 ^ 52 ≠ 0 → Starts s w (exec (.swr f) s) (.flushpaWrite v))) ∧
  (n = 0x1E3 → (v.toNat % 4 = 1 → Starts s w (exec (.swr f) s) .checkpointSave) ∧
    (v.toNat % 4 = 2 → Starts s w (exec (.swr f) s) .checkpointRestore) ∧
    (v.toNat % 4 ≠ 1 → v.toNat % 4 ≠ 2 → OnlyPasses s w (exec (.swr f) s)))

/-- ENTER and LEAVE (R33, R224, R366, R368): the id goes on the region stack or leaves it; above depth 15 a push
overwrites the oldest entry kept; the edge is traced; a stop at it waits for the end of the bundle. TRAP (R227) waits
for that end too. -/
def Obligations.Regions : Prop := ∀ (f : Ctl) (s : State) (w y : Warp), Issuing s w → (s.issuer w).r.active f.g1 f.g2 ≠ 0 →
  (s.past w).curWarp = some y →
  let x := s.issuer w
  let id := f.imm.toNat % 2 ^ 16
  let after := fun (st : List (BitVec 16)) (depth : Nat) => (s.past w).setWarp s.cur { y with r := { y.r with rstk := st, rsdepth := depth } }
  let stop := fun (v u : State) => u = if regionStops s x id then { v with issue := { v.issue with trap := some (0x122 * 2 ^ 16 + id) } } else v
  let pushed := BitVec.ofNat 16 id :: if 15 < x.r.rsdepth then x.r.rstk.dropLast else x.r.rstk
  (∀ v : State, (pdReg v 0x1A4 w.part (dieOf s.cur) 0).getLsbD 60 = false →
    ∀ kind detail word, v.traceRecord s.cur x s.issue.pc.toNat word kind detail = v) ∧
  (Leaves s w (exec (.enter f) s) fun u => stop
    ((after pushed (x.r.rsdepth + 1)).traceRecord s.cur x s.issue.pc.toNat
      ({ x.r with rstk := pushed, rsdepth := x.r.rsdepth + 1 }).rstkWord 2 id) u) ∧
  (Leaves s w (exec (.leave f) s) fun u => stop
    ((after x.r.rstk.tail (x.r.rsdepth - 1)).traceRecord s.cur x s.issue.pc.toNat x.r.rstkWord 3 id) u) ∧
  Leaves s w (exec (.trap f) s) fun u => u = { s.past w with issue := { s.issue with
    trap := some ((0x160 + f.imm.toNat % 32) * 2 ^ 16 + f.imm.toNat % 32) } }

/-- FORK (R217, R276 to R278), SYNC (R218, R280) and LAUNCH (R220, R271, R274). A FORK writes a record for its own warp
where it has none, and the child's: the label as PC, the priority, the frame that follows it, the parent's record, JOIN
0, LNID, ALLOT, the affinity, the latencies and S0 to S5; the parent's JOIN is raised by one and the child enters the
cluster's kitty. A SYNC that no child keeps has no effect; one that was held writes the resume PC, with KIND and PRIO as
they stand and RESUMED set, FRAME, RD and S0 to S5 into its record, and goes on in place where no child is left by then,
or ends its warp suspended. An accepted launch has an identity, the first of a partition 1 (log 4, the model's choice),
and its teams are dealt by number or by the most pages that a map's range has on a die. -/
def Obligations.TasksAndLaunches : Prop := ∀ (f : Ctl) (s : State) (w : Warp), Issuing s w →
  (s.issuer w).r.active f.g1 f.g2 ≠ 0 →
  let x := s.issuer w
  let cl := clusterOf s.cur
  let low := lowLane x.r.group.mask
  let frame := (src32 x s.issue 0 f.a.toNat low).toNat
  let sizes := if w.record = none then [64, 64 + frame] else [64 + frame]
  let args := fun (b : Sparse) (off : Nat) => ∀ i, i < 6 → sparseField b (off + 4 * i) 4 = (x.r.readS i).toNat
  (∀ ps, forkPlaces (s.past w) cl sizes = some ps → ps ≠ [] → Leaves s w (exec (.fork f) s) fun u => ∃ (b0 b b1 : Sparse) (v : State),
    let parent := (w.record.map BitVec.toNat).getD (ps.headD 0)
    let child := ps.getLastD 0
    let record := fun b : Sparse => sparseField b 0x18 4 = 0 ∧ sparseField b 0x1C 4 = w.lnid.toNat ∧ sparseField b 0x20 1 = x.r.allot % 256 ∧
      sparseField b 7 1 = 4 * w.prio % 256 ∧ sparseField b 0x22 2 = 0 ∧ ∀ k, k < 4 → sparseField b (0x24 + k) 1 = w.lat.getD k 0 % 256
    let start := if w.record = none then
        ((writeVa cl w.who ((s.past w).cactusTake cl parent 64) parent 64 b0).1).modWarp s.cur fun y =>
          { y with record := some (BitVec.ofNat 64 parent) }
      else s.past w
    let aff : State × Nat := match w.record with
      | some r => if w.isTask then readField start cl w.who (r.toNat + 0x21) 1 else (start, 0xFF)
      | none => (start, 0xFF)
    record b0 ∧ sparseField b0 0 7 = 0 ∧ sparseField b0 8 16 = 0 ∧ sparseField b0 0x21 1 = 0xFF ∧
    record b ∧ sparseField b 0 7 = ((s.issue.pc + 32 * f.imm.signExtend 64) &&& 0x00FFFFFFFFFFFFE0).toNat ∧
    sparseField b 8 8 = (if frame = 0 then 0 else child + 64) % 2 ^ 64 ∧ sparseField b 0x10 8 = parent % 2 ^ 64 ∧
    sparseField b 0x21 1 = (if aff.2 < 4 then dieOf s.cur else 0xFF) % 256 ∧ args b 0x28 ∧
    v = (writeVa cl w.who ((xlateRange cl w.who .write aff.1 child (64 + frame)).1.cactusTake cl child (64 + frame)) child 64 b).1 ∧
    let join := readField v cl w.who (parent + 0x18) 4
    sparseField b1 0 4 = (join.2 + 1) % 2 ^ 32 ∧ u = (writeVa cl w.who join.1 (parent + 0x18) 4 b1).1.modCluster cl fun c =>
      { c with kitty := recKey w.ctx child :: c.kitty }) ∧
  (w.record = none ∨ w.loop ≠ none ∨ (ownJoin (s.past w) s.cur x = 0 ∧ w.joining = false) → OnlyPasses s w (exec (.sync f) s)) ∧
  (∀ r, w.record = some r → w.loop = none → (ownJoin (s.past w) s.cur x ≠ 0 ∨ w.joining = true) → Leaves s w (exec (.sync f) s) fun u =>
    ∃ (b0 b1 b2 : Sparse), let va := r.toNat
    let head := readField (s.past w) cl w.who va 8
    sparseField b0 0 7 = ((s.issue.pc + 32) &&& 0x00FFFFFFFFFFFFE0).toNat ∧ sparseField b0 7 1 = head.2 / 2 ^ 56 % 16 + 16 ∧
    sparseField b0 8 8 = w.frame % 2 ^ 64 ∧ sparseField b1 0 1 = x.r.rd % 256 ∧ args b2 0 ∧
    let v1 := (writeVa cl w.who head.1 va 16 b0).1
    let v2 := (writeVa cl w.who v1 (va + 0x23) 1 b1).1
    let v := ((writeVa cl w.who v2 (va + 0x28) 24 b2).1).modWarp s.cur fun y => { y with joining := false }
    (ownJoin v s.cur x = 0 → u = v) ∧
    (ownJoin v s.cur x ≠ 0 → u.suspended = recKey w.ctx va :: v.suspended ∧ ∃ z, u.curWarp = some z ∧ z.ended = true ∧
      z.suspended = true ∧ z.r.groups = [])) ∧
  (∀ v r, launchRecord (s.past w) x (src64 x s.issue 0 f.a.toNat low).toNat = (v, .ok r) →
    let teams := recField r 8 4
    let stages := if recField r 0x14 1 = 2 then stagesOk cl w.who (recField r 0x58 8) (List.range (recField r 0x68 8)) v else (v, true)
    let dealers : State × Option (List (Nat × Bool)) := if usesMap r then mapTeams cl w.who (recField r 0x50 8) teams 0 stages.1
      else (stages.1, some ((List.range teams).map fun t => (t % 4, false)))
    Leaves s w (exec (.launch f) s) fun u => ∃ id q z n, tfind u.replies id = some q ∧ q.warp = s.cur ∧ q.dest = 192 + f.imm.toNat ∧
      q.ready = true ∧ u.curWarp = some z ∧ (f.imm.toNat < 48 → z.r.pending (sKey f.imm.toNat) = id + 1) ∧
      (tget 0 q.vals 0).toNat = n ∧
      (launchOk r = false ∨ stages.2 = false ∨ dealers.2 = none → n = 2 ∧ u.launches = s.launches) ∧
      ∀ ds, launchOk r = true → stages.2 = true → dealers.2 = some ds →
        (16 ≤ launchesOf s w.part → n = 1 ∧ u.launches = s.launches) ∧
        (launchesOf s w.part < 16 → n = 0 ∧ ∃ k, tfind u.launches k = some (launchOf r w.part w.ctx (BitVec.ofNat 32 (tget 1 s.lnidNext w.part))) ∧
          (∀ t d m, ds[t]? = some (d, m) → d < 4 → (k, t, m) ∈ (u.die d).undealt) ∧
          tget 1 u.lnidNext w.part = (tget 1 s.lnidNext w.part + 1) % 2 ^ 32)) ∧
  (∀ v map n t ds, (mapTeams cl w.who map n t v).2 = some ds → ds.length = n ∧ ∀ i d m, ds[i]? = some (d, m) →
    d < 4 ∧ (m = false → d = (t + i) % 4)) ∧
  ∀ c : List Nat, c.length = 4 → (bestDie c = none ↔ ∀ k, c.getD k 0 = 0) ∧
    ∀ d, bestDie c = some d → d < 4 ∧ c.getD d 0 ≠ 0 ∧ (∀ k, c.getD k 0 ≤ c.getD d 0) ∧ ∀ k, k < d → c.getD k 0 < c.getD d 0

/-- RFT (R229, R343) gives the warp again, of what its save area holds, the level, format and call depth; P6, S40 to
S47, V0 and V1, but for what awaited a result at the trap; the groups, without the lanes that have exited, each at its
PC and, where it did not wait or waited for a register, ready; a join or a time wait may then be over. The handler is
left. A P6 that a restored time wait names as its predicate takes that wait's outcome. What counts as a failed area is a
reading of the model in part (log 34). -/
def Obligations.Return : Prop := ∀ (f : Ctl) (s v : State) (w : Warp) (rd : SaveReader), Issuing s w →
  (s.issuer w).r.active f.g1 f.g2 ≠ 0 →
  saveReader (s.past w) (clusterOf s.cur) w.who (src64 (s.issuer w) s.issue 0 f.a.toNat (lowLane (s.issuer w).r.group.mask)).toNat =
    (v, some rd) →
  let live := w.enabled &&& ~~~w.r.exited
  let word := fun k => rd (0x80 + 48 * k) 8
  let mask := fun k => BitVec.ofNat 64 (rd (0x80 + 48 * k + 8) 8) &&& live
  let state := fun k => word k / 2 ^ 56 % 8
  let awaited := fun key => ∃ h ∈ w.handlers.head?, ∃ e ∈ h.pend, e.1 = key
  Leaves s w (exec (.rft f) s) fun u => ∃ z, u.curWarp = some z ∧ z.level = Level.ofNum (rd 0 8 / 2 ^ 8 % 4) ∧
    z.r.fmt = BitVec.ofNat 64 (rd 0x10 8) &&& 0x000000FFFFFFFFFF ∧ z.r.rd = rd 0x18 1 ∧
    (z.handlers.map fun h => h.level) = (w.handlers.tail.map fun h => h.level) ∧
    (∀ k, k < 8 → ¬ awaited (sKey (40 + k)) → z.r.readS (40 + k) = BitVec.ofNat 32 (rd (0x380 + 4 * k) 4)) ∧
    (∀ n l, n < 2 → l < 64 → ¬ awaited (vKey n l) → z.r.readV n l = BitVec.ofNat 32 (rd (0x400 + 256 * n + 4 * l) 4)) ∧
    ((∀ k, k < 16 → state k = 5 → word k / 2 ^ 59 % 8 ≠ 6) → z.r.readP 6 = BitVec.ofNat 64 (rd 0x3A0 8)) ∧
    ∀ k, k < rd 0 8 / 2 ^ 29 % 32 → mask k ≠ 0 → ∃ g ∈ z.r.groups, mask k &&& ~~~g.mask = 0 ∧
      (state k ≠ 2 → g.mask = mask k ∧ g.pc = BitVec.ofNat 64 (word k % 2 ^ 56 / 32 * 32)) ∧ (state k < 2 → g.wait = .ready)

/-- The handler's first state (R335, R336): one group of all the lanes that have not exited, at the vector of the
cause's class, with the save area, the cause, the level left, the address and the lanes in S40 to S47, which are full;
every other register is full or empty as before, V0 and V1 among them; everything in flight is set aside. BKPT (R228)
and the entry of a trap (R330, R335): T is the warp time at which the bundle is due; the area of the handler's level is
written and the warp enters the handler; from user level that level is supervisor, but hypervisor for a machine check;
from supervisor it is hypervisor; a trap at hypervisor level halts the warp. Where the area of the supervisor's handler
cannot be written the cause becomes 0x08A, with the first cause as its id and the address that failed, for a handler of
the hypervisor; where that one's cannot, the warp halts (R393). -/
def Obligations.TrapEntryAndHandler : Prop :=
  (∀ (s : State) (g T : Nat) (w : Warp) (i : TrapInfo) (tgt : Level),
  let z := enterHandler s g w T i w.level tgt
  let base := saveBase s g w.part tgt
  z.level = tgt ∧ z.r.due = T ∧ z.r.wtime = T ∧ z.r.flight = [] ∧ z.r.latch = [] ∧ z.faults = [] ∧
  z.r.groups = [{ mask := w.enabled &&& ~~~w.r.exited, wait := .ready, pending := none,
                  pc := BitVec.ofNat 64 (vectorBase s g w.part tgt + 32 * (i.cause / 32)) }] ∧
  (∀ e ∈ [(40, base), (41, base / 2 ^ 32), (42, i.cause), (43, w.level.num), (44, i.va), (45, i.va / 2 ^ 32), (46, i.lanes.toNat),
    (47, i.lanes.toNat / 2 ^ 32)], z.r.readS e.1 = BitVec.ofNat 32 e.2) ∧
  (∀ k, k < 8 → z.r.pending (sKey (40 + k)) = 0) ∧
  (∀ key, key < sKey 40 ∨ sKey 48 ≤ key → z.r.pending key = w.r.pending key) ∧
  (∀ k, k < 40 → z.r.readS k = w.r.readS k) ∧ z.r.v = w.r.v ∧ z.r.p = w.r.p ∧ z.r.b = w.r.b ∧ z.r.j = w.r.j ∧ z.f = w.f ∧
  (z.handlers.map fun h => h.level) = w.level :: w.handlers.map fun h => h.level) ∧
  ((∀ (f : Ctl) (s : State) (w : Warp), Issuing s w → exec (.bkpt f) s = .next (takeTrapAt (s.setWarp s.cur (s.issuer w)) s.cur (s.issuer w).r.due
    { cause := 0x120, id := f.imm.toNat, pc := s.issue.pc.toNat, lanes := (s.issuer w).r.group.mask, va := 0, reasons := 0 })) ∧
  ∀ (s v : State) (g T : Nat) (w : Warp) (i : TrapInfo), tfind s.warps g = some w →
    let x := { w with r := w.r.settleTrap T }
    let tgt := if w.level = .supervisor ∨ i.cause / 32 = 10 then Level.hypervisor else .supervisor
    (w.level ≠ .hypervisor → writeSave (s.sketchEvent (clusterOf g) 1 i.pc 1) g x T i w.level tgt = (v, none) →
      takeTrapAt s g T i = (v.setWarp g (enterHandler v g x T i w.level tgt)).traceRecord g x i.pc x.r.rstkWord 0 i.cause) ∧
    let halts := ∃ z, tfind (takeTrapAt s g T i).warps g = some z ∧ z.halted = true ∧
      z.r.exited = x.r.exited ||| (x.enabled &&& ~~~x.r.exited)
    (w.level = .hypervisor → halts) ∧
    ∀ va, w.level ≠ .hypervisor → writeSave (s.sketchEvent (clusterOf g) 1 i.pc 1) g x T i w.level tgt = (v, some va) →
      (tgt = .hypervisor → halts) ∧
      (tgt = .supervisor → let j := { i with cause := 0x08A, id := i.cause, va := va, reasons := 0 }
        ∀ v' e, writeSave v g x T j w.level .hypervisor = (v', e) →
          (e = none → takeTrapAt s g T i =
            (v'.setWarp g (enterHandler v' g x T j w.level .hypervisor)).traceRecord g x i.pc x.r.rstkWord 0 0x08A) ∧
          (e ≠ none → halts)))

/-- The save area (R337 to R342), field by field: the header with the group that issued last, the latches held, RD and
ALLOT; the fault record; the group table with each wait; S40 to S47, P6, V0 and V1; the latch entries; and, from 0x4A00
on, the replay records, whose SEQ counts from the warp's last start or resumption (R356). -/
def Obligations.SaveArea : Prop := (∀ (r : Regs) (tgt from_ : Level) (T time replay : Nat) (i : TrapInfo),
  r.groups.length ≤ 16 → replay ≤ 16 → r.lastGroup < 16 → r.rd < 256 →
  let t := saveHead r from_ tgt T time replay ++ faultBytes i ++ groupTable r ++ scratchBytes r ++ saveTail r T
  let field := sparseField t
  let recs := latchRecs r T
  field 0 1 = 1 ∧ field 1 1 % 16 = from_.num + 4 * tgt.num ∧ field 2 1 = recs.length ∧ field 3 1 % 32 = replay ∧
  (∀ k, k < 4 → (field 1 1).testBit (4 + k) = recs.any fun x => x.kind == 5 && x.cls == k) ∧
  field 0 8 / 2 ^ 29 = r.groups.length + 32 * r.lastGroup ∧ field 0x28 24 = 0 ∧
  (∀ e ∈ [(0x08, 8, T), (0x10, 8, r.fmt.toNat), (0x18, 1, r.rd), (0x19, 7, r.allot), (0x20, 8, time), (0x40, 2, i.cause), (0x44, 4, i.id),
    (0x48, 8, i.pc), (0x50, 8, i.lanes.toNat), (0x58, 8, i.va), (0x60, 24, i.reasons), (0x3A0, 8, (r.readP 6).toNat)],
    field e.1 e.2.1 = e.2.2 % 256 ^ e.2.1) ∧
  (∀ k, k < 8 → field (0x380 + 4 * k) 4 = (r.readS (40 + k)).toNat) ∧
  (∀ n l, n < 2 → l < 64 → field (0x400 + 256 * n + 4 * l) 4 = (r.readV n l).toNat) ∧
  (∀ k, k < r.groups.length →
    let g := r.groups.getD k Group.none
    let at1 := 0x80 + 48 * k
    let q : Nat × Nat × Nat × Nat × Nat × Nat := match g.wait with
      | .ready => (0, 0, 0, 0, 0, 0)
      | .empty => (1, 0, 0, 0, 0, 0)
      | .join j => (2, 0, 0, j, 0, 0)
      | .flag m => (3, 0, 0, m.toNat, 0, 0)
      | .rest n => (3, 0, 1, n, 0, 0)
      | .barrier b p => (4, 0, 0, b, p, 0)
      | .sleep d => (5, 7, 0, d, 0, 0)
      | .timeline d va _ th p => (5, p, 0, d.getD (2 ^ 64 - 1), va.toNat, th.toNat)
    field at1 7 = g.pc.toNat % 2 ^ 56 ∧ field (at1 + 8) 8 = g.mask.toNat ∧
    (g.pc.toNat < 2 ^ 56 → field (at1 + 7) 1 = (q.1 + 8 * q.2.1 + 64 * q.2.2.1) % 256) ∧
    field (at1 + 0x10) 8 = q.2.2.2.1 % 2 ^ 64 ∧ field (at1 + 0x18) 8 = q.2.2.2.2.1 % 2 ^ 64 ∧ field (at1 + 0x20) 8 = q.2.2.2.2.2 % 2 ^ 64 ∧
    field (at1 + 0x28) 8 = 0) ∧
  ((∀ x ∈ recs, (∀ e ∈ x.vals, e.1 < 64) ∧ (x.vals.map Prod.fst).Nodup) →
    ∀ k x, recs[k]? = some x → x.kind < 16 → x.cls < 16 → x.dest < 256 →
      let at1 := 0x600 + 272 * k
      field at1 1 = x.kind + 16 * x.cls ∧ field (at1 + 1) 1 = x.dest ∧ field (at1 + 2) 1 = x.wr % 256 ∧ field (at1 + 3) 1 = x.vis % 256 ∧
      field (at1 + 4) 4 = (if x.half then 1 else 0) ∧ field (at1 + 8) 8 = x.lanes.toNat ∧
      ∀ l, l < 64 → field (at1 + 16 + 4 * l) 4 = (tget 0 x.vals l).toNat)) ∧
  ∀ (qs : List FaultRec) (base : Nat), (∀ q ∈ qs, (∀ e ∈ q.addr, e.1 < 64) ∧ (q.addr.map Prod.fst).Nodup ∧ (∀ e ∈ q.data, e.1 < 64) ∧
      (q.data.map Prod.fst).Nodup) →
    let field := sparseField (qs.zipIdx.flatMap fun e => replayBytes (1568 * e.2) base e.1)
    ∀ k q, qs[k]? = some q →
      let at1 := 1568 * k
      field at1 8 = q.syl.toNat ∧ field (at1 + 8) 8 = q.lanes.toNat ∧ field (at1 + 0x10) 8 = (q.seq - base) % 2 ^ 64 ∧
      field (at1 + 0x18) 2 = q.cause % 2 ^ 16 ∧ field (at1 + 0x1A) 6 = 0 ∧
      (∀ l, l < 64 → field (at1 + 0x20 + 8 * l) 8 = (tget 0 q.addr l).toNat) ∧
      ∀ l, l < 64 → field (at1 + 0x220 + 16 * l) 16 = (tget 0 q.data l).toNat

/-! ### The steps of the part -/

/-- Steps of the accesses in flight: a fence completes once what it covers has been performed, and discards what an
RFENCE names (R146, R147, R260); a lane is translated, or faults (R161, R162); partial results of reductions gather on a
die and are combined at the home, value := value op partial, for dies 0 to 3 in order (R247 to R249); a touched watch is
reported once (R366); the trap of a bundle that has issued, faults, a single step and notices become a trap once warp
time has come to the next bundle's due time (R162, R335, R366), faults in precise memory mode at their checkpoint
(R346). Which lane moves next is the choice of the model (log 6), as is the order of the causes in one class of a joint
trap (log 45), that a single step comes before a notice (log 84), what a return to a checkpoint brings back (log 20),
and that page tables and partial results are reached in the slots of a partition alone (log 67). -/
def Obligations.AccessSteps : Prop := (∀ (s : State) (id : Nat) (o : MemOp), tfind s.mops id = some o → o.kind = .fence ∨ o.kind = .rfence →
    (released s o = true → Answers (exec (.fenceComplete id) s) fun t => SameBytes s t ∧ t.mem = s.mem ∧ tfind t.mops id = none ∧
      (o.kind = .rfence → (o.fn % 2 = 1 → (t.cluster o.cluster).recs = []) ∧ (2 ≤ o.fn → (t.cluster o.cluster).ro = []))) ∧
    (released s o = false → exec (.fenceComplete id) s = .next s)) ∧
  (∀ (s v : State) (id l : Nat) (o : MemOp) (r : Except Nat (Table Nat)), tfind s.mops id = some o → l < 64 →
    o.kind.isAccess = true → (o.lanes &&& ~~~o.xlated &&& ~~~o.faulted).getLsbD l = true → inheritedCause s id o l = none →
    slotOpen s o.part = true ∨ (∀ k, k < o.pieces → needsWalk s o.cluster o.who o.kind.acc (o.pieceVa l k) = false) →
    xlateLanePieces o.cluster o.who o.kind.acc (o.pieceVa l) (List.range o.pieces) s = (v, r) →
    Answers (exec (.pageWalk id (laneBit l)) s) fun t =>
      (∀ ps, r = .ok ps → ∃ o', tfind t.mops id = some o' ∧ o'.xlated = o.xlated ||| laneBit l ∧
        ∀ k, k < o.pieces → tfind o'.pa (4 * l + k) = tfind ps k) ∧
      (∀ e w, r = .error e → tfind s.warps o.warp = some w → w.ended = false →
        ∃ o' z, tfind t.mops id = some o' ∧ o'.faulted.getLsbD l = true ∧ tfind t.warps o.warp = some z ∧ z.faults ≠ [])) ∧
  (∀ (s : State) (line : Nat), (slotOpen s (linePart s line) = false → exec (.combine line) s = .next s) ∧
    (slotOpen s (linePart s line) = true → Answers (exec (.combine line) s) fun t => t.mem = s.mem ∧
      (∀ e ∈ t.ucopy, lineOf (copyPlace e.1) ≠ line ∨ 4 ≤ copyDie e.1) ∧
      (∀ e ∈ s.ucopy, lineOf (copyPlace e.1) ≠ line → e ∈ t.ucopy) ∧
      t.homeByte = ([0, 1, 2, 3].flatMap fun d => s.partialsOf d line).foldl withPartial s.homeByte)) ∧
  (∀ (s : State) (die line : Nat), (slotOpen s (linePart s line) = false → exec (.uCopyEviction die line) s = .next s) ∧
    (slotOpen s (linePart s line) = true → Answers (exec (.uCopyEviction die line) s) fun t => t.mem = s.mem ∧
      (∀ e ∈ t.ucopy, ¬ (copyDie e.1 = die ∧ lineOf (copyPlace e.1) = line)) ∧
      (∀ e ∈ s.ucopy, ¬ (copyDie e.1 = die ∧ lineOf (copyPlace e.1) = line) → e ∈ t.ucopy) ∧
      t.homeByte = (s.partialsOf die line).foldl withPartial s.homeByte)) ∧
  (∀ (s : State) (id l k : Nat) (o : MemOp), tfind s.mops id = some o → l < 64 → tfind o.pa (4 * l) = some k → k < 2 ^ 56 →
    laneReadyAt s id o l (gatherTokens s o l) = true → gatherable s o l = true → wholeAccess s o = false →
    (∀ x ∈ s.partialsOf (o.cluster / 80) (lineOf k), copyPlace x.1 = k ∧ x.2.fn = o.fn ∧ x.2.wide = o.wide) →
    Answers (exec (.gatheredRedApply id (laneBit l)) s) fun t => SameBytes s t ∧ t.mem = s.mem ∧
      ∃ p, tfind t.ucopy (copyKey (o.cluster / 80) k) = some p ∧ p.value = BitVec.ofNat 64 (atomicNew o.fn (8 * o.size)
        (match tfind s.ucopy (copyKey (o.cluster / 80) k) with
         | some q => q.value.toNat
         | none => (BitVec.ofNat 64 (atomicIdentity o.fn (8 * o.size))).toNat) ((tget 0 o.data l).toNat % 2 ^ (8 * o.size)) 0)) ∧
  (∀ (s : State) (id : Nat) (o : MemOp) (w : Warp), tfind s.mops id = some o → o.watch ≠ 0 → tfind s.warps o.warp = some w →
    w.ended = false → (o.lanes &&& ~~~o.reported ≠ 0 → exec (.dataWatchMatch id) s = .next s) ∧
    (o.lanes &&& ~~~o.reported = 0 → Answers (exec (.dataWatchMatch id) s) fun t => SameBytes s t ∧ t.mem = s.mem ∧
      ∃ z, tfind t.warps o.warp = some z ∧ ∃ q ∈ z.faults, q.cause = 0x123 ∧ q.lanes = o.watch ∧ q.replay = false)) ∧
  ∀ (s : State) (g : Nat) (w : Warp), tfind s.warps g = some w → w.ended = false → w.halted = false →
    (w.r.wtime < w.r.due → w.soft ≠ none ∨ w.faults = [] ∨ faultCheckpoint w = none →
      exec (.deferredFaultTrap g) s = .next s) ∧
    (∀ x, w.r.due ≤ w.r.wtime → w.soft = some x →
      exec (.deferredFaultTrap g) s = .next (takeTrapAt (s.setWarp g { w with soft := none }) g w.r.due
        { cause := x.1 / 2 ^ 16, id := x.1 % 2 ^ 16, pc := x.2.1.toNat, lanes := x.2.2, va := 0, reasons := 0 })) ∧
    (∀ pc, w.r.due ≤ w.r.wtime → w.soft = none → w.faults = [] → w.handlers = [] → w.stepped = some pc →
      exec (.deferredFaultTrap g) s = .next (takeTrapAt (s.setWarp g { w with stepped := none }) g w.r.due
        { cause := 0x121, id := 0, pc := pc.toNat, lanes := w.r.group.mask, va := 0, reasons := 0 })) ∧
    (∀ n rest, w.r.due ≤ w.r.wtime → w.soft = none → w.faults = [] → w.stepped = none ∨ w.handlers ≠ [] → w.notices = n :: rest →
      let i : TrapInfo := { cause := n.1, id := n.2, pc := w.r.group.pc.toNat, lanes := w.r.group.mask, va := 0, reasons := 0 }
      exec (.deferredFaultTrap g) s = .next (takeTrapAt (s.setWarp g (w.takeNotice n rest)) g w.r.due i) ∧
        (w.checkpoint = [] → w.takeNotice n rest = { w with notices := rest })) ∧
    (∀ q, w.soft = none → firstFault w.faults = some q → faultsReady s g w = true →
      q ∈ w.faults ∧ (∀ r ∈ w.faults, causeRank q.cause ≤ causeRank r.cause) ∧
      (w.r.due ≤ w.r.wtime → faultCheckpoint w = none →
        exec (.deferredFaultTrap g) s = .next (takeTrapAt s g w.r.due (faultInfo w q))) ∧
      ∀ c, faultCheckpoint w = some c →
        exec (.deferredFaultTrap g) s = .next (takeTrapAt (s.toCheckpoint g w c) g c.regs.wtime { faultInfo w q with pc := c.pc.toNat })) ∧
    (w.soft = none → w.faults ≠ [] → faultsReady s g w = false → exec (.deferredFaultTrap g) s = .next s)

/-- Steps of the warps' waits and of the groups (R210, R215, R216, R290, R293, R294): a group that an exit has made
ready is due in the warp cycle after that exit. Errors and tests (R171, R328, R333, R352, R353): a lane that would
receive data with an error faults, and what holds it is to be tested; a bank, a pad or a tile that fails its test is
used no more. Where an error lies is an argument of the step (log 56). -/
def Obligations.WaitAndErrorSteps : Prop :=
  ((∀ (s : State) (g : Nat) (w : Warp), tfind s.warps g = some w →
    (1024 ≤ w.passed → exec (.starvationBound g) s = .next (s.setWarp g { w with starved := true })) ∧
    (w.r.cur < w.r.groups.length → w.r.group.ready = false ∨ 256 ≤ w.burst →
      (∃ k, 0 < k ∧ k < w.r.groups.length ∧ (w.r.groups.getD ((w.r.cur + k) % w.r.groups.length) Group.none).ready = true) →
      Answers (exec (.groupRotation g) s) fun t => ∃ k, 0 < k ∧ k < w.r.groups.length ∧
        t = s.setWarp g { w with burst := 0, r := { w.r with
          cur := (w.r.cur + k) % w.r.groups.length,
          due := ((w.r.groups.getD ((w.r.cur + k) % w.r.groups.length) Group.none).soon).getD w.r.due } } ∧
        (w.r.groups.getD ((w.r.cur + k) % w.r.groups.length) Group.none).ready = true ∧
        ∀ j, 0 < j → j < k → (w.r.groups.getD ((w.r.cur + j) % w.r.groups.length) Group.none).ready = false) ∧
    (∀ i n, i < w.r.groups.length → (w.r.groups.getD i Group.none).wait = .sleep n →
      (timeOf s (dieOf g) < n → exec (.sleepWake g i) s = .next s) ∧
      (n ≤ timeOf s (dieOf g) → exec (.sleepWake g i) s = .next (s.setWarp g { w with r := { w.r with
        groups := w.r.groups.set i { w.r.groups.getD i Group.none with wait := .ready } } }))) ∧
    ∀ i n va pl th p, i < w.r.groups.length → (w.r.groups.getD i Group.none).wait = .timeline (some n) va pl th p →
      (timeOf s (dieOf g) ≤ n → exec (.tlwaitDeadline g i) s = .next s) ∧
      (n < timeOf s (dieOf g) → Answers (exec (.tlwaitDeadline g i) s) fun t => ∃ z, t = s.setWarp g z ∧
        z.r.groups = w.r.groups.set i { w.r.groups.getD i Group.none with wait := .ready } ∧
        (p < 7 → ∀ l, (w.r.groups.getD i Group.none).mask.getLsbD l = true → (z.r.readP p).getLsbD l = false) ∧
        z.r.v = w.r.v ∧ z.r.s = w.r.s)) ∧
  ∀ (s : State) (pa : Nat), isWindow pa = false → Answers (exec (.timelineCounterUpdate pa) s) fun t => SameBytes s t ∧
    t.mem = s.mem ∧ ∀ g z, tfind t.warps g = some z → ∀ q ∈ z.r.groups, ∀ d va p th pr,
      q.wait = .timeline d va (some p) th pr → pa < p + 8 → p < pa + 8 → deadlinePast s g q.wait = false → (BitVec.ofNat 64 (s.counterAt p) - th).toInt < 0) ∧
  ((∀ (s : State) (kind place : Nat) (m : Lanes), Answers (exec (.uncorrectedError kind place m) s) fun t => t = { s with bad := t.bad } ∧
    (8 < kind ∨ kind = 7 → t.bad = s.bad) ∧
    (kind ≤ 8 → kind ≠ 7 → ∀ e, e ∈ t.bad ↔ e ∈ s.bad ∨ ∃ l, l < 64 ∧ m.getLsbD l = true ∧ e = (kind, place + l))) ∧
  (∀ (s : State) (id l k p : Nat) (o : MemOp) (w : Warp), tfind s.mops id = some o → tfind s.warps o.warp = some w → w.ended = false →
    l < 64 → (o.lanes &&& ~~~o.faulted &&& ~~~o.team).getLsbD l = true → s.ckpt = none → inheritedCause s id o l = none →
    laneReady s id o l = true → wholeAccess s o = false → peerRefuses s o l 0 = none → poisoned s o l = some (k, p) →
    Answers (exec (.homeAccess id (laneBit l) [] []) s) fun t => (k, p) ∈ t.tests ∧ ∃ o' z, tfind t.mops id = some o' ∧
      o'.faulted.getLsbD l = true ∧ (o.faulted = 0 → o'.cause = 0x140 + k) ∧ tfind t.warps o.warp = some z ∧ z.faults ≠ []) ∧
  ∀ (s : State) (n : Nat),
    (Answers (exec (.selfTest 0 n false) s) fun t => (t.sub (n / 4)).noWarps = true ∧
      ∀ g w, tfind s.warps g = some w → w.ended = false → subOf g = n / 4 → ∃ z, tfind t.warps g = some z ∧ (0x148, 0) ∈ z.notices) ∧
    (Answers (exec (.selfTest 1 n false) s) fun t => (t.cluster (n / 64)).noTeams = true) ∧
    (Answers (exec (.selfTest 4 n false) s) fun t => ((t.sub (n / 32)).tile (n % 32)).token = .retired) ∧
    ∀ kind, (Answers (exec (.selfTest kind n true) s) fun t => t.subs = s.subs ∧ ∀ c, (t.cluster c).noTeams = (s.cluster c).noTeams) ∧
      ∀ pass, kind ≤ 6 → kind ≠ 5 → Answers (exec (.selfTest kind n pass) s) fun t => (kind, n) ∉ t.bad ∧ (kind, n) ∉ t.tests)

/-- Real time and power: a slot of 2 ns, a turn, the cycle of a cluster, at whose end the waiters of a completed barrier
become ready, its stretching, clock and retention, and the modes (R212, R250, R291, R358 to R364, R380). That time
passes in steps, and the free bits in them, are the choice of the model (logs 23, 46 and 47); that RETENTION_EXIT leaves
whenever it comes is its reading (log 66), as is what a budget's first update is (log 49). -/
def Obligations.PowerSteps : Prop := (∀ s : State, s.tick.now = s.now + 1 ∧ (∀ d, d < 4 → timeOf s d ≤ timeOf s.tick d ∧
      (timeOf s d ≤ s.now + 2 → s.now + 1 ≤ timeOf s.tick d ∧ timeOf s.tick d ≤ s.now + 3)) ∧
    s.tick.agenda = (if (s.now + 1) % 2 = 0 then [.bucketRefill] else []) ++ (if (s.now + 1) % 512 = 0 then [.calendarTurn] else []) ++ s.agenda) ∧
  (∀ (s : State), Answers (exec .bucketRefill s) fun t => t = { s with ctxs := t.ctxs } ∧
    (s.mops = [] → s.posted = [] → s.copies = [] → tsorted 0 s.ctxs = true → ∀ c port, port < 4 → (s.context c).valid = true →
      (s.context c).cap ≠ 0 → tget 0 (s.context c).used port ≤ 16 * (s.context c).cap → (t.context c).balance port =
        min (16 * (s.context c).cap) ((s.context c).balance port + (s.context c).rate))) ∧
  (∀ (s : State), Answers (exec .calendarTurn s) fun t => t.turn = s.turn + 1 ∧ t.staged = none ∧
    (∀ b, s.staged = some b → t.calendar = (List.range 256).map fun i => recField b i 1) ∧
    (s.staged = none → t.calendar = s.calendar ∧ ∀ p, p < 24 → (s.part p).valid = true →
      (t.part p).mode = (if throttles s p = true ∧ overBit s p = true then 3 else (s.part p).nextMode) ∧
      (t.part p).emeter = ((s.part p).emeter + Config.energyOfTurn s.turn p) % 2 ^ 64)) ∧
  (∀ (s : State) (cl : Nat),
    ((s.cluster cl).retention = true → exec (.permitRefill cl) s = .next s) ∧
    ((s.cluster cl).retention = false → Answers (exec (.permitRefill cl) s) fun t =>
      (t.cluster cl).cycle = ((s.cluster cl).cycle + 1) % 2 ^ 64 ∧
      (t.cluster cl).freq = (s.cluster cl).nextFreq.getD (s.cluster cl).freq ∧ (t.cluster cl).nextFreq = none ∧
      (∀ g z m, clusterOf g = cl → tfind t.warps g = some z → tfind t.teams z.team = some m → ∀ q ∈ z.r.groups, ∀ b p,
        q.wait = .barrier b p → (m.bar b).phase = p) ∧ (t.cluster cl).lreqRead = (s.die (cl / 80)).lreq ∧
      (t.cluster cl).rreqRead = (s.die (cl / 80)).rreq ∧
      ((s.cluster cl).stretch = 0 → (t.cluster cl).stretch = if (s.cluster cl).droop then 1 else 0) ∧
      ((s.cluster cl).stretch ≠ 0 → (t.cluster cl).stretch = 0 → 8 ≤ (s.cluster cl).stretch) ∧
      (256 ≤ (s.cluster cl).stretch → (t.cluster cl).stretch = 257 ∧ .fllStepDown cl ∈ t.agenda) ∧
      ∀ k i, k < 4 → i < 4 → (s.sub (4 * cl + k)).permits.length = 4 → (s.sub (4 * cl + k)).spent.length = 4 →
        let x := s.sub (4 * cl + k)
        let y := t.sub (4 * cl + k)
        y.issuer = none ∧ y.busyV = max (x.busyV - 1) x.newV ∧ y.busyS = max (x.busyS - 1) x.newS ∧
        y.busyM = max (x.busyM - 1) x.newM ∧ y.permits.getD i 0 = if (s.cluster cl).stretch = 0
          then min ([256, 192, 128, 128].getD i 0) (x.permits.getD i 0 - x.spent.getD i 0 + (permitRates (clusterMode s cl)).getD i 0)
          else x.permits.getD i 0 - x.spent.getD i 0) ∧
    ((s.cluster cl).retention = false → (s.cluster cl).stretch = 0 →
      exec (.droopStretch cl) s = .next (s.setCluster cl { s.cluster cl with droop := true })) ∧
    ((s.cluster cl).stretch ≠ 257 → exec (.fllStepDown cl) s = .next s) ∧
    ((s.cluster cl).stretch = 257 →
      exec (.fllStepDown cl) s = .next (s.setCluster cl { s.cluster cl with stretch := 0, freq := (s.cluster cl).freq - 1 })) ∧
    (∀ code, code ≤ (if clusterMode s cl < 2 then 64 else if clusterMode s cl = 2 then 48 else 32) →
      exec (.frequencyChange cl code) s = .next (s.setCluster cl { s.cluster cl with nextFreq := some code })) ∧
    (clusterIdle s cl = true → 4096 ≤ (s.cluster cl).idle →
      exec (.retentionEntry cl) s = .next (s.setCluster cl { s.cluster cl with retention := true })) ∧
    ((s.cluster cl).retention = true → ∀ testOk,
      exec (.retentionExit cl true testOk) s = .next (s.setCluster cl { s.cluster cl with
        retention := false, asked := false, idle := 0 })) ∧
    ((s.cluster cl).retention = true → Answers (exec (.retentionExit cl false false) s) fun t =>
      (t.cluster cl).retention = false ∧ (t.cluster cl).offline = true ∧
      ∀ g w, tfind t.warps g = some w → clusterOf g = cl → w.ended = true)) ∧
  ∀ (s : State) (v : DWord), v.toNat / 2 ^ 8 % 2 ^ 5 ≤ 23 → exec (.pmodeWrite v) s = .next (s.setPart (v.toNat / 2 ^ 8 % 2 ^ 5)
    { s.part (v.toNat / 2 ^ 8 % 2 ^ 5) with nextMode := v.toNat % 4 })

/-- Copies (R175, R177, R244, R324, R325): acceptance reads and checks the record, in queue order, and takes the lines
that no other operation owns; a channel starts the oldest accepted entry that no older tile range stops; once it owns
its lines its elements move and its flag is set. That the pages of a copy are translated at acceptance is a reading of
the model (log 85), as is that a copy moves in its partition's slots (log 67). -/
def Obligations.CopySteps : Prop := ∀ (s : State) (id : Nat) (c : CopyOp) (w : Warp), tfind s.copies id = some c →
  tfind s.warps c.warp = some w →
  (∀ v r, c.stage = 0 → (s.copies.all fun e => decide (id ≤ e.1) || e.2.cluster != c.cluster || e.2.stage != 0) = true →
    afterDone s c.after = true → c.writesTile = true ∨ storesHome s id c.warp = true → slotOpen s c.part = true →
    (s.cluster c.cluster).recs.find? (fun e => e.1 == recKey c.ctx c.recAddr.toNat) = none →
    readRecord c.cluster c.who s c.recAddr.toNat 192 = (v, r) →
    let fails := fun (outcome : Nat) (va : DWord) => Answers (exec (.copyQueueAccept id) s) fun t => tfind t.copies id = none ∧
      ∃ z, tfind t.warps c.warp = some z ∧ (z.flag c.flag).state = 2 ∧ (z.flag c.flag).outcome = BitVec.ofNat 8 outcome ∧
        (z.flag c.flag).errAddr = va
    (∀ e, r = .error e → fails (copyReason e.1) (BitVec.ofNat 64 e.2)) ∧
    ∀ bs, r = .ok bs →
      (tensorOk c bs = false → fails 3 c.recAddr) ∧
      let range := rangeFail c (tensorOf bs) (((findHandle s c.team c.handle).map fun h => h.size).getD 0)
      (∀ o, tensorOk c bs = true → range = some o → fails 2 (BitVec.ofNat 64 o)) ∧
      (tensorOk c bs = true → range = none → Answers (exec (.copyQueueAccept id) s) fun t =>
        (t.cluster c.cluster).recs.head? = some (recKey c.ctx c.recAddr.toNat, bs) ∧
        ∃ c', tfind t.copies id = some c' ∧
          c' = { c with record := bs, stage := 1, accepted := v.nextId, pages := c'.pages, noPage := c'.noPage } ∧
          ∀ l ∈ copyLines c', (dirOf t l).owner = (if (dirOf v l).owner = none then some id else (dirOf v l).owner))) ∧
  (c.stage = 1 → (s.copies.find? fun e => e.2.cluster == c.cluster && decide (e.2.stage < 2)) = some (id, c) →
    (s.copies.filter fun e => e.2.cluster == c.cluster && decide (2 ≤ e.2.stage)).length < 4 →
    (s.copies.all fun e => decide (id ≤ e.1) || !tilesClash e.2 c) = true →
    exec (.copyChannelStart c.cluster) s = .next { s with copies := tput s.copies id { c with stage := 2 } }) ∧
  (c.stage = 2 → copyReady s id c = false → s.requests = [] → ∀ answers, exec (.copyComplete id answers) s = .next s) ∧
  (∀ h off, c.stage = 2 → copyReady s id c = true → c.moved = 0 → s.ckpt = none → s.requests = [] →
    findHandle s c.team c.handle = some h → (∀ e ∈ s.posted, e.2.op ≠ id) → ∀ answers,
    let x := tensorOf c.record
    let sets := fun t : State => tfind t.copies id = none ∧ ∃ z, tfind t.warps c.warp = some z ∧ (z.flag c.flag).state = 1
    (c.writesTile = true → copyRows c x = [[(off, none)]] → Answers (exec (.copyComplete id answers) s) fun t => sets t ∧
      ∃ h', findHandle t c.team c.handle = some h' ∧ h'.read off x.esize = natToBytes x.esize x.fill) ∧
    (∀ (a k : Nat), c.writesTile = false → copyRows c x = [[(off, some (a : Int))]] → a < 2 ^ 56 → s.bad = [] → s.ucopy = [] →
      c.place s a = .ok k → isWindow k = false → bucketPays s c.ctx (portOf c.cluster k) 1 = true →
      Answers (exec (.copyComplete id answers) s) fun t =>
        sets t ∧ ∀ j, j < x.esize → t.homeByte (k + j) = tget 0 h.bytes (off + j)))

/-- Traversal (R153, R186 to R188, R302 to R304): a table is loaded; a lane with an empty deck is done; an open parent
is popped when no leave routine is named; a node with an enter routine waits for its call; spills move 16 entries; a
call forms a group at the routine with the entry in the table's registers; the walk ends on its flag; the space of a
freed handle returns once nothing uses it. That the spill of an all-spilled deck and the pop come next is the choice of
the model (log 6), that both keep to the partition's slots its reading (log 67). -/
def Obligations.TraversalSteps : Prop := (∀ (s v : State) (id : Nat) (q : TSet) (w : Warp) (tm : Team) (b : List Byte), tfind s.tsets id = some q →
    tfind s.warps q.warp = some w → tfind s.teams q.team = some tm → afterDone s q.after = true →
    (s.walks.all fun e => e.2.team != q.team || e.2.table != q.table) = true → slotOpen s w.part = true →
    readRecord (clusterOf q.warp) { w.who with level := q.level } s q.addr.toNat 64 = (v, .ok b) →
    (tableValid b = true → Answers (exec (.tsetTableLoaded id) s) fun t => tfind t.tsets id = none ∧
      ∃ m, tfind t.teams q.team = some m ∧ tfind m.tables q.table = some b) ∧
    (tableValid b = false → w.ended = false → Answers (exec (.tsetTableLoaded id) s) fun t => tfind t.tsets id = none ∧
      ∃ z, tfind t.warps q.warp = some z ∧ ∃ r ∈ z.faults, r.cause = 0x0B1 ∧ r.replay = false)) ∧
  ∀ (s : State) (id l : Nat) (x : Walk) (h : Handle) (w : Warp), tfind s.walks id = some x → l < 64 →
    findHandle s x.team x.handle = some h → tfind s.warps x.warp = some w →
    let d := h.deckOf l
    let tab := walkTable s x
    let e := h.entry l (d.top - 1)
    let less := s.modHandle x.team x.handle fun h => h.setDeck l { d with top := d.top - 1 }
    let pops := x.walking.getLsbD l = true ∧ tfind x.pend l = none ∧ x.calling.getLsbD l = false ∧ tfind x.held l = none ∧
      tfind x.seed l = none ∧ deckWaits s x.team x.handle s.nextId l = false ∧ slotOpen s x.part = true
    (pops → d.top = 0 → Answers (exec (.traversalPop id l) s) fun t => ∃ y, tfind t.walks id = some y ∧
      y.walking = x.walking &&& ~~~laneBit l ∧ y.errors = x.errors) ∧
    (pops → d.top ≠ 0 → d.top = d.low → exec (.traversalPop id l) s = .next { s with agenda := .deckSpill id l :: .traversalPop id l :: s.agenda }) ∧
    (pops → d.low < d.top → d.low = 0 ∨ d.low + 1 < d.top → boundsFull w x tab l = true → entryMask e ≠ 0 → tab.leave = 0 →
      exec (.traversalPop id l) s = .next less) ∧
    (∀ v n, pops → d.low < d.top → d.low = 0 ∨ d.low + 1 < d.top → boundsFull w x tab l = true → entryMask e = 0 → tab.enter ≠ 0 →
      readNode less x tab (entryNode e).toNat = (v, some n) → builtInTest (w.r.settle (w.r.due + 1024)) tab n.bytes l = true →
      Answers (exec (.traversalPop id l) s) fun t => ∃ y q, tfind t.walks id = some y ∧ tfind y.held l = some q ∧ q.call = 0 ∧
        q.node = entryNode e ∧ q.level = entryLevel e ∧ q.aux = entryAux e ∧ q.mask = n.present) ∧
    (x.walking.getLsbD l = true → tfind x.pend l ≠ none → d.top = d.low + 64 → x.spillFree s l d = false →
      exec (.deckSpill id l) s = .next s) ∧
    (∀ v r, x.walking.getLsbD l = true → tfind x.pend l ≠ none → d.top = d.low + 64 → x.spillFree s l d = true →
      engineWriteVa x.cluster x.who (x.warp, x.flag) id s (x.spill.toNat + 65536 * l + 16 * d.low) 256
        (sparseOf ((List.range 16).flatMap fun i => natToBytes 16 (h.entry l (d.low + i)).toNat)) = (v, r) →
      (r = none → exec (.deckSpill id l) s = .next (v.modHandle x.team x.handle fun h => h.setDeck l { d with low := d.low + 16 })) ∧
      (r ≠ none → Answers (exec (.deckSpill id l) s) fun t => ∃ y, tfind t.walks id = some y ∧ y.walking.getLsbD l = false ∧
        tfind y.errors l = some 0x0B6)) ∧
    (∀ i c m, nextCall s x = some (i, c, m) → Answers (exec (.routineCall id) s) fun t => ∃ y z, tfind t.walks id = some y ∧
      y.calling = m ∧ tfind t.warps x.warp = some z ∧ (∀ g ∈ w.r.groups, g.lend m ∈ z.r.groups) ∧
      (∃ g ∈ z.r.groups, g.mask = m ∧ g.pc = BitVec.ofNat 64 (callEntry tab c) ∧ g.wait = .ready) ∧
      ([tab.vnp, tab.vnp + 1, tab.vlv, tab.vcm, tab.vax].Nodup → (∀ n ∈ [tab.vnp, tab.vnp + 1, tab.vlv, tab.vcm, tab.vax], n < w.r.allot) →
        ∀ k q, k < 64 → m.getLsbD k = true → tfind x.held k = some q → z.r.readV tab.vnp k = lowWord q.node ∧
          z.r.readV (tab.vnp + 1) k = highWord q.node ∧ z.r.readV tab.vlv k = q.level.zeroExtend 32 ∧
          z.r.readV tab.vcm k = q.mask ∧ z.r.readV tab.vax k = q.aux)) ∧
    (x.walking = 0 → x.calling = 0 → Answers (exec (.walkComplete id) s) fun t => tfind t.walks id = none ∧
      ∃ z, tfind t.warps x.warp = some z ∧ (z.flag x.flag).state = (if x.errors = [] then 1 else 2)) ∧
    ∀ gen o, tfind s.oldHandles gen = some o → handleBusy s gen = false → o.gone ≤ (s.cluster o.cluster).cycle → Answers (exec (.handleSpaceReturn gen) s) fun t =>
      tfind t.oldHandles gen = none ∧ t.warps = s.warps ∧ t.mem = s.mem

/-- Teams, tasks and their ends (R272, R273, R275, R278, R279, R284, R286, R287, R392). That a step has a subject, and
which step comes next, is the choice of the model (logs 6 and 44); its readings are that a cluster in retention only
notes a steal (log 66), that stop words and stage tables are read at supervisor level (log 42), that these steps keep to
the partition's slots (log 67), and the allotment of a record whose ALLOT is no multiple of 16 from 16 to 192 (log 89). -/
def Obligations.ScheduleSteps : Prop := (∀ (s : State) (die id team cl : Nat) (q : Launch) (map : Bool) (gs : List Nat), gs.Nodup → q.kind ≠ 2 →
    ((dealerHeads s die).filter fun e => slotOpen s e.2.1.part).findSome? (fun e => (teamCluster s e.2.1 die).map fun p => (e, p)) = some ((id, q, team, map), cl, gs) →
    ownStart s cl = false →
    Answers (exec (.dealerDealTeam die) s) fun t =>
      (∀ i, i < gs.length → tfind t.warps (gs.getD i 0) = some (launchWarp q id s.nextId team i (s.cluster cl).cycle)) ∧
      (∀ e ∈ (t.die die).undealt, ¬ (e.1 = id ∧ e.2.1 = team)) ∧ ∃ x, tfind t.teams s.nextId = some x ∧ x.launch = id ∧
        x.index = BitVec.ofNat 32 team ∧ x.cluster = cl ∧ x.live = gs) ∧
  (∀ (s : State) (die id team victim cl : Nat) (q : Launch) (gs : List Nat), gs.Nodup → q.kind ≠ 2 →
    (List.range 24).findSome? (fun part => if !slotOpen s part || (dealerHeads s die).any fun e => e.2.1.part == part then none
      else (stealTeam s die part).bind fun e => (teamCluster s e.2.1 die).map fun p => (e, p)) = some ((id, q, team, victim), cl, gs) →
    ownStart s cl = false →
    Answers (exec (.dealerSteal die) s) fun t =>
      (∀ i, i < gs.length → tfind t.warps (gs.getD i 0) = some (launchWarp q id s.nextId team i (s.cluster cl).cycle)) ∧
      ∀ e ∈ (t.die victim).undealt, ¬ (e.1 = id ∧ e.2.1 = team)) ∧
  (∀ (s v : State) (cl key g : Nat) (rest : List Nat) (r : TaskRec), (s.cluster cl).kitty = key :: rest →
    slotOpen s (clusterPart s cl) = true → recordAt s cl (clusterPart s cl) key = (v, some r) → taskPlace v cl (clusterPart s cl) r = some g →
    Answers (exec (.taskStart cl) s) fun t => (t.cluster cl).kitty = rest ∧ ∃ z, tfind t.warps g = some z ∧
      z.record = some (BitVec.ofNat 64 (recVa key)) ∧ z.isTask = true ∧ z.r.allot = r.regs ∧ z.prio = r.prio ∧ z.level = .user ∧
      z.r.groups = [{ mask := allLanes, pc := pcOf (if r.resumed then r.pc else ((tfind v.dealt key).map (·.1)).getD r.pc), wait := .ready, pending := none }]) ∧
  (∀ (s : State) (cl victim key g : Nat) (r : TaskRec), ownStart s cl = false → clusterPart s cl ≠ Config.hvPartition →
    slotOpen s (clusterPart s cl) = true →
    ([0, 1, 2, 3].map fun k => (cl / 80 + k) % 4).findSome? (fun d => (fullestKitty s (clusterPart s cl) d cl).bind fun v =>
      (stealable s (clusterPart s cl) (cl / 80) v).bind fun e =>
        (taskPlace s cl (clusterPart s cl) e.2).map fun g => (v, e, g)) = some (victim, (key, r), g) →
    dealerServes s cl = false →
    ((s.cluster victim).retention = true →
      exec (.kittySteal cl) s = .next (s.setCluster victim { s.cluster victim with asked := true })) ∧
    ((s.cluster victim).retention = false → Answers (exec (.kittySteal cl) s) fun t => key ∉ (t.cluster victim).kitty ∧
      ∃ z, tfind t.warps g = some z ∧ z.record = some (BitVec.ofNat 64 (recVa key)) ∧ z.isTask = true)) ∧
  (∀ (s : State) (g : Nat) (w : Warp), tfind s.warps g = some w →
    (w.ended = true → endWaits s g w = false → slotOpen s w.part = true → Answers (exec (.warpSlotRelease g) s) fun t => tfind t.warps g = none) ∧
    (w.ended = false ∨ endWaits s g w = true → exec (.warpSlotRelease g) s = .next s)) ∧
  (∀ (s : State) (tid : Nat) (x : Team), tfind s.teams tid = some x →
    (x.live = [] → x.open_ = 0 → x.parked = false → x.tasks = 0 → slotOpen s x.part = true → Answers (exec (.teamComplete tid) s) fun t =>
      tfind t.teams tid = none ∧ (x.isTask = true → t = { s with teams := terase s.teams tid })) ∧
    (x.live ≠ [] ∨ x.tasks ≠ 0 → exec (.teamComplete tid) s = .next s)) ∧
  ∀ (s : State) (tid slot g : Nat) (x : Team) (q : Launch), tfind s.teams tid = some x → tfind s.launches x.launch = some q →
    tfind x.place slot = some g → tfind s.warps g = none → x.open_.getLsbD slot = true → tfind s.preempts tid = none → slot < 64 →
    slotOpen s x.part = true →
    (∀ v n, x.cleared.getLsbD slot = false →
      readField s x.cluster { ctx := q.ctx, part := q.part, level := .supervisor } q.epi.toNat 4 = (v, n) → n ≠ 0 →
      Answers (exec (.stageSlotRestart tid slot) s) fun t => ∃ y, tfind t.teams tid = some y ∧ y.open_.getLsbD slot = false ∧
        tfind y.place slot = none) ∧
    ∀ v e a, x.cleared.getLsbD slot = true →
      stageEntry s x.cluster { ctx := q.ctx, part := q.part, level := .supervisor } q.body.toNat (tget 0 x.bind slot) = (v, some e) →
      cactusFit s x.cluster 64 = some a → Answers (exec (.stageSlotRestart tid slot) s) fun t => ∃ z, tfind t.warps g = some z ∧
        z.stage = some (tget 0 x.bind slot) ∧ z.record = some (BitVec.ofNat 64 a) ∧
        (z.r.groups.map fun p => p.pc) = [pcOf e.2]

/-- Pre-emption (R347, R348, R351): the save stops the team's warps, writes the area once they are quiet, and PSTAT says
so; the restore gives the team its cluster again. Readings of the model: logs 51 and 52, that both wait for a slot of
the partition (log 67), and what a restored warp block must be (log 90). -/
def Obligations.PreemptionSteps : Prop := (∀ (s : State) (g : Nat) (w x : Warp) (v : DWord), tfind s.warps g = some w → tfind s.warps (pctlSlot v) = some x →
    pctlSlot v = 5120 * (v.toNat / 2 ^ 9 % 4) + 64 * (v.toNat / 2 ^ 2 % 2 ^ 7) + 16 * (v.toNat / 2 ^ 11 % 4) + v.toNat / 2 ^ 13 % 16 ∧
    (pstatBusy s w.part (dieOf g) = true → exec (.pctlSave g v) s = .next (s.setPstat w.part (dieOf g) 3 5)) ∧
    (pstatBusy s w.part (dieOf g) = false → v.toNat % 4 < 2 → v.toNat / 2 ^ 2 % 2 ^ 7 < 80 → w.level = .hypervisor ∨ x.part = w.part →
      tfind s.preempts x.team = none → Answers (exec (.pctlSave g v) s) fun t => pstatBusy t w.part (dieOf g) = true ∧
        (∀ k z, tfind t.warps k = some z → z.team = x.team → z.stop = true) ∧
        ∃ p, tfind t.preempts x.team = some p ∧ p.saved = false ∧ p.psave = pdReg s 0x178 w.part (dieOf g) 0)) ∧
  (∀ (s v : State) (tid : Nat) (p : Preempt) (x : Team) (r : Option (Nat × Nat)), tfind s.preempts tid = some p → p.saved = false →
    teamQuiet s tid = true → writesShut s p.part = false → tfind s.teams tid = some x → teamWarps s tid ≠ [] →
    writeVa p.cluster { ctx := p.ctx, part := p.part, level := .supervisor } s p.psave.toNat 0x5C4000
      (teamArea s tid x (teamWarps s tid)) = (v, r) →
    (r = none → Answers (exec (.preemptSaveComplete tid) s) fun t => (∀ e ∈ t.warps, e.2.team ≠ tid) ∧
      (pdReg t 0x17A p.part p.die 0).toNat % 4 = 2 ∧ (∃ y, tfind t.teams tid = some y ∧ y.parked = true ∧ y.live = []) ∧
      ∃ q, tfind t.preempts tid = some q ∧ q.saved = true) ∧
    (r ≠ none → Answers (exec (.preemptSaveComplete tid) s) fun t => (pdReg t 0x17A p.part p.die 0).toNat = 3 + 16 * 6 ∧
      tfind t.preempts tid = none)) ∧
  (∀ (s : State) (g : Nat) (w : Warp) (value : DWord), tfind s.warps g = some w → writesShut s w.part = true →
    (s.owed.contains (.pctlRestore g value) = true → exec (.pctlRestore g value) s = .next s) ∧
    (s.owed.contains (.pctlRestore g value) = false → pstatBusy s w.part (dieOf g) = false → exec (.pctlRestore g value) s =
      .next { s.setPstat w.part (dieOf g) 1 0 with owed := s.owed ++ [.pctlRestore g value] })) ∧
  (∀ (s : State) (g : Nat) (w : Warp) (value : DWord), tfind s.warps g = some w → writesShut s w.part = false →
    let e := Instr.pctlRestore g value
    s.owed.contains e = true → (s.owed.erase e).contains e = false →
    exec e s = exec e ({ s with owed := s.owed.erase e }.setPstat w.part (dieOf g) 0 0)) ∧
  ∀ (s v : State) (g tid : Nat) (w : Warp) (value : DWord) (rd : SaveReader) (p : Preempt) (x : Team) (ps : List (Nat × Nat × Nat)),
    tfind s.warps g = some w → s.owed.contains (.pctlRestore g value) = false → writesShut s w.part = false →
    pstatBusy s w.part (dieOf g) = false → (∀ i, i < 64 → (rd 0x20 8).testBit i = true → blockCheck (fun off n => rd (blockBase i + off) n) = true) →
    areaReader 0x5C4000 s (clusterOf g) w.who (pdReg s 0x178 w.part (dieOf g) 0).toNat = (v, some rd) → rd 0 4 = 1 →
    savedTeam v rd w.part (pdReg s 0x178 w.part (dieOf g) 0).toNat (w.level = .hypervisor) = some (tid, p, x) →
    value.toNat / 2 ^ 2 % 2 ^ 7 < 80 → restorePlaces v rd tid (pctlCluster value) x = .ok ps →
    Answers (exec (.pctlRestore g value) s) fun t => tfind t.preempts tid = none ∧ (pdReg t 0x17A w.part (dieOf g) 0).toNat = 2 ∧
      ∃ y, tfind t.teams tid = some y ∧ y.cluster = pctlCluster value ∧ y.parked = false

/-- Claims and objections (R171, R194, R312, R315 to R318): a claim opens a proposal on a free key, or loses to an
earlier one; a proposal commits at the end of its window once what its claim covers is performed; an objection of
another member ends it; outcomes set the flag. That a claim arrives in a step of its own, and what a commit waits for,
are readings of the model (log 18). Claim messages leave in slots 0 and 128 of the calendar and arrive in any ns from
then on (R315); a destroyed group is gone from every inbox (R312). -/
def Obligations.ClaimSteps : Prop := (∀ (s : State) (id g member w n : Nat) (k : Word) (v : DWord) (rel : Release) (q : ClaimGroup),
    tfind s.cmsgs id = some (.claim g q.id k v member w n rel) → g < 2 ^ 31 → tfind s.cgroups g = some q → groupUnreachable s q = false →
    hasLeft s id = true →
    (storeFails s g k = true → Answers (exec (.claimArrival id none) s) fun t => ∃ m, tfind t.cmsgs m = some (.outcome (.warp w n) 0x0BF)) ∧
    (openOn s g k = none → storeFails s g k = false →
      takenLater s { key := groupKey g k.toNat, time := timeOf s (keyHome g k.toNat), member := member, order := rel.place } = false →
      groupKey g k.toNat ∈ s.keySlots ∨ tget 0 (s.die (keyHome g k.toNat)).usedKeys q.part < keyQuota s q.part (keyHome g k.toNat) →
      Answers (exec (.claimArrival id none) s) fun t => groupKey g k.toNat ∈ t.keySlots ∧
        (∃ p, tfind t.proposals s.nextId = some p ∧ p.group = g ∧ p.num = q.next ∧ p.key = k ∧ p.value = v ∧ p.member = member ∧
          p.claimant = .warp w n ∧ p.state = 0 ∧ p.ta = timeOf s (keyHome g k.toNat) ∧ p.release = rel) ∧
        ∃ r, tfind t.cgroups g = some r ∧ r.next = (if 0xFFFFFFFD ≤ q.next then 0 else q.next + 1)) ∧
    (∀ j p, openOn s g k = some (j, p) → windowEnded s q p = false → p.ta < timeOf s (keyHome g k.toNat) → tfind s.proposals j = some p →
      storeFails s g k = false →
      takenLater s { key := groupKey g k.toNat, time := timeOf s (keyHome g k.toNat), member := member, order := rel.place } = false →
      Answers (exec (.claimArrival id none) s) fun t => t.proposals = s.proposals ∧
        tfind t.cmsgs s.nextId = some (.outcome (.warp w n) 1))) ∧
  (∀ (s : State) (id g member w n : Nat) (k : Word) (v : DWord) (rel : Release),
    tfind s.cmsgs id = some (.claim g 0 k v member w n rel) → 2 ^ 31 ≤ g → hasLeft s id = true →
    (s.unreachable.contains (g / 2 ^ 16 % 256) = true → Answers (exec (.claimArrival id none) s) fun t =>
      tfind t.cmsgs s.nextId = some (.outcome (.warp w n) 0x0BD)) ∧
    (s.unreachable.contains (g / 2 ^ 16 % 256) = false →
      (rel.done s 4 = true → Answers (exec (.claimArrival id none) s) fun t =>
        t.outbox = s.outbox ++ [.claim (g / 2 ^ 16 % 256) (g % 4096) k v rel.place s.nextId]) ∧
      (rel.done s 4 = false → exec (.claimArrival id none) s = .next s))) ∧
  (∀ (s : State) (id answer : Nat), hasLeft s id = (decide (s.now / 2 % 128 = 0) || decide (id < s.carried)) ∧
    s.tick.carried = (if s.now / 2 % 128 = 0 then s.nextId else s.carried) ∧ (hasLeft s id = false → exec (.claimArrival id none) s = .next s ∧
    exec (.inboxDelivery id none) s = .next s ∧ exec (.objectionArrival id none answer) s = .next s ∧
    exec (.claimOutcome id answer) s = .next s)) ∧
  (∀ (s : State) (id g m num : Nat) (k : Word) (v : DWord), tfind s.cmsgs id = some (.deliver g m num k v) → hasLeft s id = true → ∀ q, tfind s.cgroups g = some q →
    q.cross = true ∨ tfind q.bound m ≠ none → (tget [] s.inboxes (memberKey g m)).length < 64 → Answers (exec (.inboxDelivery id none) s) fun t =>
      tfind t.cmsgs id = none ∧ tget [] t.inboxes (memberKey g m) = tget [] s.inboxes (memberKey g m) ++ [(num, k, v)]) ∧
  (∀ (s : State) (id g num member w reply : Nat) (pc syl : DWord) (lanes : Lanes) (q : ClaimGroup) (j : Nat) (p : Proposal) (r : Reply),
    tfind s.cmsgs id = some (.object g q.id num member w reply pc syl lanes) → g < 2 ^ 31 → tfind s.cgroups g = some q →
    proposalOf s g num = some (j, p) → tfind s.proposals j = some p →
    hasLeft s id = true → p.state = 0 → openOn s g p.key = some (j, p) → windowEnded s q p = false → p.member ≠ member → tfind s.replies reply = some r →
    ∀ answer, Answers (exec (.objectionArrival id none answer) s) fun t => (∃ x, tfind t.proposals j = some x ∧ x.state = 1) ∧
      ∃ x, tfind t.replies reply = some x ∧ x.ready = true ∧ tget 0 x.vals 0 = 0) ∧
  (∀ (s : State) (id : Nat) (p : Proposal) (q : ClaimGroup), tfind s.proposals id = some p → tfind s.cgroups p.group = some q →
    (p.state = 0 → windowEnded s q p = true → groupUnreachable s q = false → p.release.done s (if q.cross then 4 else 3) = true →
      Answers (exec (.claimWindowEnd id) s) fun t =>
      tfind t.committed (groupKey p.group p.key.toNat) = some (p.num, p.value) ∧ (∃ x, tfind t.proposals id = some x ∧ x.state = 2) ∧
      ∀ w n, p.claimant = .warp w n → tfind t.cmsgs s.nextId = some (.outcome (.warp w n) 0)) ∧
    (p.release.done s (if q.cross then 4 else 3) = false → exec (.claimWindowEnd id) s = .next s) ∧
    (windowEnded s q p = false → exec (.claimWindowEnd id) s = .next s)) ∧
  (∀ (s : State) (id g n r answer : Nat) (w : Warp), tfind s.cmsgs id = some (.outcome (.warp g n) r) → tfind s.warps g = some w →
    hasLeft s id = true →
    Answers (exec (.claimOutcome id answer) s) fun t => tfind t.cmsgs id = none ∧ ∃ z, tfind t.warps g = some z ∧
      (r < 2 → (z.flag n).state = 1 ∧ (z.flag n).outcome = BitVec.ofNat 8 r) ∧
      (2 ≤ r → (z.flag n).state = 2 ∧ (z.flag n).outcome = BitVec.ofNat 8 (r - 0xA0))) ∧
  (∀ (s : State) (device : Nat),
    (Answers (exec (.claimPlaneUnreachable device) s) fun t => device ∈ t.unreachable ∧
      ∀ id p q, tfind s.proposals id = some p → p.state = 0 → tfind s.cgroups p.group = some q → q.cross = true → device ∈ q.members →
        ∃ x, tfind t.proposals id = some x ∧ (x.state = 1 ∨ x.state = 2) ∧ (windowEnded s q p = false → x.state = 1)) ∧
    Answers (exec (.planeReachable device) s) fun t => t = { s with unreachable := t.unreachable } ∧
      ∀ d, d ∈ t.unreachable ↔ d ∈ s.unreachable ∧ d ≠ device) ∧
  (∀ (s : State) (id : Nat) (r : Remote), r.gone = true →
    let word := 2 ^ 31 + r.device.toNat * 2 ^ 16 + r.group.toNat % 4096
    exec (.inboxDelivery id (some r)) s =
      .next { s with inboxes := terase s.inboxes (memberKey word 0), pollers := terase s.pollers word }) ∧
  ∀ (s : State) (part g : Nat) (q : ClaimGroup), tfind s.cgroups g = some q →
    (q.part = part → Answers (exec (.claimGroupDestroy part g) s) fun t => tfind t.cgroups g = none ∧
      (∀ e ∈ t.proposals, e.2.group ≠ g) ∧ (∀ k ∈ t.keySlots, k / 2 ^ 32 ≠ g) ∧ (∀ e ∈ t.inboxes, e.1 / 4096 ≠ g) ∧
      (q.cross = true → ∀ d ∈ q.members, d ≠ Config.deviceNumber.toNat → .groupGone d g ∈ t.outbox)) ∧
    (q.part ≠ part → exec (.claimGroupDestroy part g) s = .next s)

/-- Writes to peers and requests from them and from the host (R379, R383 to R385, R389 to R391): a write leaves for the
PA behind its window, and is lost where no report has come 1 ms after it; a request whose bytes are not memory is
refused, one whose bytes a copy owns or a checkpoint holds waits, and so does what comes after it at its port; any other
is performed at the home and answered. That requests are steps with their data, and what each port is, is the choice of
the model (log 61), as is what a lost write breaks (log 60). -/
def Obligations.PeerSteps : Prop := (∀ (s : State) (id : Nat) (p : Posted), tfind s.posted id = some p → p.window < 64 → p.offset < 2 ^ 46 →
    (p.sent = false → slotOpen s p.part = true → bucketPays s p.ctx (p.cluster / 80) p.units = true →
      olderWrite s id p (fun q => !q.sent) = false → (∀ g, p.warp = some g → outstanding s g < 64) → s.requests = [] →
      Answers (exec (.postedWriteSend id) s) fun t =>
        .write (if (s.window p.window).host then 256 else (s.window p.window).target) ((s.window p.window).base + p.offset) p.bytes ∈
          t.outbox ∧
        ∃ r, tfind t.posted id = some r ∧ r = { p with sent := true, sentAt := s.now, fresh := false, consumed := r.consumed }) ∧
    (p.sent = true → olderWrite s id p (fun _ => true) = true → ∀ refused, exec (.postedWriteReport id refused) s = .next s) ∧
    (p.sent = true → olderWrite s id p (fun _ => true) = false →
      (p.sentAt + 1000000 ≥ s.now → Answers (exec (.postedWriteReport id false) s) fun t => tfind t.posted id = none ∧ t.windows = s.windows) ∧
      (p.sentAt + 1000000 < s.now → exec (.postedWriteReport id false) s = exec (.postedWriteReport id true) s) ∧
      Answers (exec (.postedWriteReport id true) s) fun t => tfind t.posted id = none ∧ (t.window p.window).lost = true) ∧
    (p.sent = false ∨ s.now ≤ p.sentAt + 1000000 → exec (.postedWriteLost id) s = .next s) ∧
    (p.sent = true → p.sentAt + 1000000 < s.now → Answers (exec (.postedWriteLost id) s) fun t => tfind t.posted id = none ∧ (t.window p.window).lost = true)) ∧
  (∀ (s : State) (tag pa n op data cmp : Nat) (bs : List (Option Byte)), s.requests = [] →
    (inboundKeys pa bs.length = none → exec (.inboundPostedWrite tag pa bs) s = .next { s with outbox := s.outbox ++ [.refusal tag] }) ∧
    (inboundKeys pa n = none → exec (.inboundRead tag pa n) s = .next { s with outbox := s.outbox ++ [.refusal tag] } ∧
      exec (.inboundAtomic tag pa op n data cmp) s = .next { s with outbox := s.outbox ++ [.refusal tag] }) ∧
    (∀ ks, inboundKeys pa bs.length = some ks →
      (inboundWaits s ks = true → exec (.inboundPostedWrite tag pa bs) s = .next { s with requests := [.peerWrite tag pa bs] }) ∧
      (inboundWaits s ks = false → Answers (exec (.inboundPostedWrite tag pa bs) s) fun t => t.outbox = s.outbox ++ [.report tag] ∧
        ∀ i b, bs[i]? = some (some b) → t.homeByte (ks.getD i 0) = b)) ∧
    ∀ ks, inboundKeys pa n = some ks → inboundWaits s ks = false → s.ucopy = [] →
      exec (.inboundRead tag pa n) s = .next { s with outbox := s.outbox ++ [.data tag (ks.map s.homeByte)] } ∧
      (n = 4 ∨ n = 8 → pa % n = 0 → op ≤ 10 → Answers (exec (.inboundAtomic tag pa op n data cmp) s) fun t =>
        t.outbox = s.outbox ++ [.data tag (s.homeBytes (ks.headD 0) n)] ∧ t.homeBytes (ks.headD 0) n = natToBytes n
          (atomicNew op (8 * n) (bytesToNat (s.homeBytes (ks.headD 0) n)) (data % 2 ^ (8 * n)) (cmp % 2 ^ (8 * n))))) ∧
  (∀ (s : State) (tag pa n : Nat) (bs : List Byte), s.requests = [] →
    (s.bstate ≠ 5 → 2 ^ 60 ≤ pa → pa - 2 ^ 60 + bs.length ≤ 2 ^ 26 → Answers (exec (.hostWrite pa bs) s) fun t =>
      t = { s with staging := t.staging } ∧ ∀ i b, bs[i]? = some b → tget Memory.blank t.staging (pa - 2 ^ 60 + i) = b) ∧
    (s.bstate ≠ 5 → 2 ^ 60 ≤ pa → pa - 2 ^ 60 + n ≤ 2 ^ 26 → exec (.hostRead tag pa n) s = .next { s with
      outbox := s.outbox ++ [.data tag ((List.range n).map fun i => tget Memory.blank s.staging (pa - 2 ^ 60 + i))] }) ∧
    (2 ^ 61 ≤ pa → exec (.hostRead tag pa n) s = .next { s with
      outbox := s.outbox ++ [.data tag ((List.range n).map fun i => bar0Byte s (pa - 2 ^ 61 + i))] }) ∧
    (s.bstate = 5 ∨ pa < 2 ^ 60 → pa < 2 ^ 61 →
      let keys := fun m => if pa < 2 ^ 60 then inboundKeys pa m
        else if pa - 2 ^ 60 + m ≤ 2 ^ 36 then inboundKeys (s.bar2 + (pa - 2 ^ 60)) m else none
      (keys n = none → exec (.hostRead tag pa n) s = .next { s with outbox := s.outbox ++ [.refusal tag] }) ∧
      (keys bs.length = none → exec (.hostWrite pa bs) s = .next s) ∧
      (∀ ks, keys n = some ks → inboundWaits s ks = false → s.ucopy = [] →
        exec (.hostRead tag pa n) s = .next { s with outbox := s.outbox ++ [.data tag (ks.map s.homeByte)] }) ∧
      ∀ ks, keys bs.length = some ks →
        (inboundWaits s ks = true → exec (.hostWrite pa bs) s = .next { s with requests := [.hostWrite pa bs] }) ∧
        (inboundWaits s ks = false → Answers (exec (.hostWrite pa bs) s) fun t =>
          ∀ i b, bs[i]? = some b → t.homeByte (ks.getD i 0) = b))) ∧
  (∀ (s : State) (q : Request) (tag pa n : Nat) (bs : List Byte), s.requests = [q] → s.takeRequest q = none → q.ofHost = true →
    exec (.hostWrite pa bs) s = .next { s with requests := [q, .hostWrite pa bs] } ∧
      exec (.hostRead tag pa n) s = .next { s with requests := [q, .hostRead tag pa n] }) ∧
  ∀ (s : State) (v : Word),
    let rings := fun t : State => { t with doorbell := v, interrupts := t.interrupts ++ [{ kind := 2, lnid := 0, detail := v.toNat }] }
    (s.bstate ≠ 5 → exec (.doorbellWrite v) s = .next (rings s)) ∧
    (s.bstate = 5 → ∃ b, exec (.doorbellWrite v) s = .next (rings { s with bar2 := b, free := s.free + 1 }))

/-- Boot, measurements, the checkpoint and the hypervisor's block (R377 to R381, R385 to R388). The second copy of the
boot tables and the names of buffers are readings of the model (logs 41, 57 to 59 and 62), as is that dumps and trace
records wait for a slot of the partition (log 67). -/
def Obligations.HypervisorSteps : Prop := (∀ s : State, (s.bstate = 3 → exec .recoveryGo s = .next { s with bstate := 4 }) ∧
    (s.bstate = 0 → exec .boot s = .next { s with bstate := 1 }) ∧
    ∀ e ∈ [(1, s.flashA, 2), (2, s.flashB, 3), (4, s.staging, 6)], s.bstate = e.1 →
      (imageError s e.2.1 ≠ 0 → exec .boot s = .next { s with berr := imageError s e.2.1, bstate := e.2.2 }) ∧
      (imageError s e.2.1 = 0 → Answers (exec .boot s) fun t => t.bstate = 5 ∧ t.berr = 0 ∧
        measOf t 0 = sha512 (measOf s 0 ++ imageDigest e.2.1) ∧ ∃ z, tfind t.warps (64 * Config.hvCluster) = some z ∧
          z.level = .hypervisor ∧ (z.r.groups.map fun g => g.pc) = [pcOf (0xC000100000 + imageField e.2.1 0x10 8)])) ∧
  (∀ (s : State) (v : DWord) (k : Nat), paKey (v.toNat / 2 ^ 12 % 2 ^ 44 * 4096) = some k → s.ucopy = [] →
    (Answers (exec (.attestExtend v) s) fun t => t = { s with meas := t.meas } ∧ ∀ m, measOf t m =
      if m = v.toNat / 2 % 8 then sha512 (measOf s m ++ s.homeBytes k 64) else measOf s m) ∧
    Answers (exec (.attestQuote v) s) fun t => t.homeBytes k 64 = s.homeBytes k 64 ∧
      ∀ i b, ((List.range 8).flatMap (measOf s))[i]? = some b → t.homeByte (k + 64 + i) = b) ∧
  (∀ s : State, s.ckpt = none →
    (((List.range 320).all fun cl => cl == Config.hvCluster || clusterIdle s cl) = true →
      (Answers (exec .checkpointSave s) fun t => t.ckpt = some 0 ∧ sregGet t (sregKey 0x1E4 0) 0 = 1) ∧
      Answers (exec .checkpointRestore s) fun t => t.ckpt = some 1 ∧ sregGet t (sregKey 0x1E4 0) 0 = 1) ∧
    (((List.range 320).all fun cl => cl == Config.hvCluster || clusterIdle s cl) = false → ∀ e ∈ [Instr.checkpointSave, .checkpointRestore],
      Answers (exec e s) fun t => t = { s with sreg := t.sreg } ∧ sregGet t (sregKey 0x1E4 0) 0 = 3)) ∧
  (∀ s : State, s.requests = [] → (s.ckpt = some 0 → Answers (exec (.checkpointComplete 0) s) fun t => t.ckpt = none ∧ t.mem = copyOut s.mem) ∧
    (s.ckpt = some 1 → Answers (exec (.checkpointComplete 0) s) fun t => t.ckpt = none ∧ t.mem = copyBack s.mem ∧ t.l2 = [] ∧
      ∀ c, (t.cluster c).tlb = [] ∧ (t.cluster c).ro = [])) ∧
  (∀ (s : State) (v : DWord), s.ucopy = [] → Answers (exec (.flushpaWrite v) s) fun t =>
    ∀ e ∈ t.l2, ∀ kind, kind < 3 → ¬ (kind * kindBase + v.toNat / 2 ^ 16 % 2 ^ 36 * 2 ^ 16 ≤ e.1 ∧
      e.1 < kind * kindBase + v.toNat / 2 ^ 16 % 2 ^ 36 * 2 ^ 16 + 2 ^ 16 * (v.toNat / 2 ^ 52))) ∧
  (∀ (s v : State) (b : List Byte), readRecord Config.hvCluster hvWho s (sregGet s (sregKey 0x1E0 0) 0).toNat 0x3100 = (v, .ok b) →
    (∀ r, blockReason v b = some r → exec .hvcommitGo s = .next (v.setSreg (sregKey 0x1E1 0) 0 (BitVec.ofNat 64 (6 + 16 * r)))) ∧
    (blockReason v b = none → Answers (exec .hvcommitGo s) fun t => t.staged = some b ∧ sregGet t (sregKey 0x1E1 0) 0 = 2)) ∧
  (∀ (s : State) (g : Nat) (w : Warp) (v : DWord), tfind s.warps g = some w →
    (Answers (exec (.tlbinvWrite g v) s) fun t => t.mem = s.mem ∧ t.l2 = s.l2 ∧ t.warps = s.warps ∧
      ∀ e ∈ (t.cluster (clusterOf g)).tlb, e.1 = w.ctx → v.getLsbD 56 = false ∧
        e.2.1 / 2 ^ e.2.2.1 ≠ v.toNat / 2 ^ 16 % 2 ^ 40 * 2 ^ 16 / 2 ^ e.2.2.1) ∧
    (∀ u, writesShut s w.part = false →
      let x := { s with owed := s.owed.erase (.sketchDump g v) }.modWarp g fun w => { w with dumps := terase w.dumps v.toNat }
      writeVa (clusterOf g) w.who x (v.toNat / 2 ^ 12 % 2 ^ 44 * 4096) 32768 (sketchImage s (clusterOf g)) = (u, none) →
      exec (.sketchDump g v) s = .next u) ∧
    (writesShut s w.part = true → ∀ e ∈ if traces s w.part then [Instr.sketchDump g v, .sessionRemap g v] else [.sketchDump g v],
      exec e s = .next (if s.owed.contains e then s else { s with owed := s.owed ++ [e] })) ∧
    (v.toNat % 2 ^ 16 ≠ 1 → writesShut s w.part = false ∨ traces s w.part = false → Answers (exec (.sessionRemap g v) s) fun t => ∀ k z, tfind t.warps k = some z → z.part = w.part →
      z.ended = false → (0x124, 1) ∈ z.notices)) ∧
  ∀ (s : State) (n k : Nat) (v : DWord),
    exec (.histogramClear n) s = .next (s.setSub n { s.sub n with hist := [] }) ∧
    Answers (exec (.sketchEventWrite n k v) s) fun t => (sregGet t (sregKey (0x1A8 + k) n) 0).toNat = v.toNat % 2 ^ 9 ∧
      tget 0 (t.cluster n).epoch k = (tget 0 (s.cluster n).epoch k + 1) % 2 ^ 16 ∧
      ∀ e ∈ (t.cluster n).sketch, e.1 / 4096 ≠ k

/-! ### Encoding, the step, reset and the invariant -/

/-- Decode and encode agree on every instruction: the word of a well-formed instruction decodes, in its slot, to that
instruction, with every operand (R44, R49, R55). -/
def Obligations.DecodeOfEncode : Prop := ∀ (i : Instr) (slot : Slot), slotOf i = some slot → WellFormed i →
  decodeSyllable slot (encode i) = .ok i

/-- The other direction: a syllable that decodes is the word of the instruction it decodes to, which stands in that slot
and is well formed; and the bundle of four such words decodes to the four (R41, R44, R49, R57). -/
def Obligations.EncodeOfDecode : Prop := (∀ (slot : Slot) (w : DWord) (i : Instr), decodeSyllable slot w = .ok i → slotOf i = some slot ∧ WellFormed i ∧ encode i = w) ∧
  (∀ (bits : BitVec 256) (b : Bundle), decodeBundle bits = .ok b → encodeBundle b = bits) ∧
  ∀ b : Bundle, slotOf b.v = some .vector → slotOf b.m = some .memory → slotOf b.e = some .engine → slotOf b.c = some .control →
    (∀ i ∈ bundleList b, WellFormed i) → decodeBundle (encodeBundle b) = .ok b

/-- Words of the four slots decode to the instructions that they stand for (R44, R49, R59); an unassigned opcode and a
reserved bit are refused with their reasons (R55). -/
def Obligations.DecodeWords : Prop := decodeSyllable .vector 0x2277080405000000 = .ok (.vfmul
    { g1 := 7, g2 := 7, d := 8, a := 4, b := 5, c := 0, e := 0, xa := false, xb := false, xc := false, m := 0, h := 0 }) ∧
  decodeSyllable .memory 0x017728C405000010 = .ok (.ldg
    { g1 := 7, g2 := 7, d := 40, a := 0xC4, b := 5, c := 0, e := 0, xa := false, xb := false, xc := false, m := 4, h := 0 }) ∧
  decodeSyllable .engine 0x1277030000000100 = .ok (.macq
    { g1 := 7, g2 := 7, d := 3, a := 0, b := 0, c := 0, e := 1, xa := false, xb := false, xc := false, m := 0, h := 0 }) ∧
  decodeSyllable .control 0x0417000000000008 = .ok (.brd
    { g1 := 1, g2 := 7, gap := 0, land := false, yield := false, a := 0, imm := 8 }) ∧
  decodeSyllable .vector 0x1C77000000000000 = .error .unassignedOpcode ∧
  decodeSyllable .control 0x0077010000000000 = .error (issueReasonOf 1)

/-- A step runs the decoded instructions: when no agenda is left and no other warp takes a turn, the bundle at hand at
the current group's address, whose bits decode to b, which is due and which no hold, delay or check stops or traps,
issues: its four instructions run in slot order, each `exec` on the state that the one before it leaves, in the issue
context of that bundle; then the issue is over (R13, R41 to R43, R55, R253, R292). An agenda runs its first event (log
6). In precise memory mode an access whose bundle does what a return to its checkpoint could not undo is performed with
it (log 20); a peer answers what an issue depends on as it answers the operation (log 13). The order of the turns and
the agenda are the choice of the model (log 6). -/
def Obligations.StepRunsDecoded : Prop := (∀ (s : State) (i : Instr) (t : List Instr), s.agenda = i :: t → step s = exec i { s with agenda := t }) ∧
  ∀ (s v : State) (g : Nat) (w : Warp) (p q : List (Nat × Warp)) (bits : BitVec 256) (b : Bundle),
    s.agenda = [] → s.warps = p ++ (g, w) :: q → tfind s.warps g = some w →
    (∀ e ∈ p ++ q, clusterRuns s (clusterOf e.1) = true → sideTurn (e, warpTurn s e.1 e.2) = none ∧
      wantsSlot (warpTurn s e.1 e.2) = false) →
    clusterRuns s (clusterOf g) = true → subOpen s (subOf g) = true → w.ended = false → w.halted = false →
    w.soft = none → w.faults = [] → w.noticed = false → stopped w = false → w.r.group.ready = true → w.burst < 256 → w.missed = false →
    { s with cur := g, issue := { Issue.idle with pc := w.r.group.pc, t := w.r.wtime } }.nextBundle g w = (v, .hit bits) →
    codeBad v g w = false → decodeBundle bits = .ok b → w.r.due ≤ w.r.wtime →
    let u := { v with issue := { issueOf w.r.group.pc bits w.r.wtime with peer := v.free } }
    let x := w.at w.r.wtime
    bundleHeld u g x b = none → slotDelay x b = none → firstRaise (earlyRaises u x (issueCause u x bits) (bundleList b)) = none →
    sourceEmpty x (bundleList b) = false → firstRaise ((bundleList b).flatMap (otherRaises u x) ++ entryRaises u x) = none →
    badRegister u g x b = none → earlyAccess u x b = none →
    (step s = finishBundle (thenRun (thenRun (thenRun (exec b.v (u.beginIssue b)) (exec b.m)) (exec b.e)) (exec b.c))) ∧
    (∃ y, Issuing (u.beginIssue b) y ∧ y.r = w.r) ∧ (u.beginIssue b).cur = g ∧
    (u.beginIssue b).issue = { issueOf w.r.group.pc bits w.r.wtime with
      peer := v.free, checked := true, atOnce := if atOnce x b then some v.free else none }

/-- What the spec gives at reset: no warp, team or launch is resident; boot is in training without an error; every tile
is floating, zero and free and every permit balance is its cap (R181, R358); FEAT is 0xFF and OVT 0x4015 (R58, R81); the
registers that the tables reset to 0 read 0, CLXB reads 8,000 and EBUDGET all ones (R35, R331, R364, R385, R387). -/
def Obligations.ResetValues : Prop := let s := State.reset
  s.warps = [] ∧ s.teams = [] ∧ s.launches = [] ∧ s.bstate = 0 ∧ s.berr = 0 ∧ s.doorbell = 0 ∧
  (∀ k, measOf s k = List.replicate 64 0) ∧
  (∀ n t, let q := tget Tile.reset (s.sub n).tiles t
    q.token = .free ∧ q.integer = false ∧ q.queue = [] ∧ ∀ k, tget 0 q.elems k = 0) ∧
  (∀ n, (s.sub n).permits = permitCaps) ∧
  (∀ c, (ovtOf s c) = 0x4015) ∧
  ∀ (g : Nat) (w : Warp),
    (∀ n ∈ [0x001, 0x00F, 0x010, 0x150, 0x151, 0x170, 0x171, 0x172, 0x173, 0x178, 0x179, 0x17A, 0x180, 0x181, 0x198, 0x19A,
        0x1A0, 0x1A1, 0x1A4, 0x1A5, 0x1E0, 0x1E1, 0x1E4], sregRead s g w n = 0) ∧
    sregRead s g w 0x120 = 0xFF ∧ sregRead s g w 0x162 = 8000 ∧ sregRead s g w 0x199 = 2 ^ 64 - 1

/-- Reset's memory is in canonical form. The blank value is the choice of the model (log 1). -/
def Obligations.InvAtReset : Prop := State.Inv State.reset

/-- Every step keeps the canonical form of memory: addresses strictly rising, no entry of the blank value. The blank
value is the choice of the model (log 1). -/
def Obligations.InvStep : Prop := ∀ s t : State, State.Inv s → step s = .next t → State.Inv t
end

