-- ==== Sys2Proof/Laws/Table.lean ====
section
/-! SUPPORT. Tables: a read after a write, and the canonical form. -/

namespace Sys2Proof.Machine

variable {α : Type}

theorem tfind_tput_self (t : Table α) (k : Nat) (v : α) : tfind (tput t k v) k = some v := by
  induction t with
  | nil => simp [tput, tfind]
  | cons e t ih =>
    obtain ⟨j, w⟩ := e
    unfold tput
    split
    · simp [tfind]
    · split
      · simp [tfind]
      · simp only [tfind, ih]
        split
        · omega
        · rfl

theorem tfind_tput_ne (t : Table α) {j k : Nat} (v : α) (h : j ≠ k) : tfind (tput t k v) j = tfind t j := by
  induction t with
  | nil => simp [tput, tfind, h.symm]
  | cons e t ih =>
    obtain ⟨i, w⟩ := e
    unfold tput
    split
    · simp [tfind, h.symm]
    · split
      · subst_vars; simp [tfind, h.symm]
      · simp only [tfind, ih]

theorem tput_tput (t : Table α) (k : Nat) (v w : α) : tput (tput t k v) k w = tput t k w := by
  induction t with
  | nil => simp [tput]
  | cons e t ih =>
    obtain ⟨j, x⟩ := e
    by_cases h : k < j
    · simp [tput, h]
    · by_cases h2 : k = j
      · subst h2; simp [tput]
      · simp [tput, h, h2, ih]

theorem tsorted_mono (t : Table α) {b c : Nat} (h : b ≤ c) (hs : tsorted c t = true) : tsorted b t = true := by
  cases t with
  | nil => rfl
  | cons e t => simp only [tsorted, Bool.and_eq_true, decide_eq_true_eq] at *; exact ⟨by omega, hs.2⟩

theorem tsorted_tput (t : Table α) (b k : Nat) (v : α) (hb : b ≤ k) (hs : tsorted b t = true) : tsorted b (tput t k v) = true := by
  induction t generalizing b with
  | nil => simp [tput, tsorted, hb]
  | cons e t ih =>
    obtain ⟨j, w⟩ := e
    simp only [tsorted, Bool.and_eq_true, decide_eq_true_eq] at hs
    unfold tput
    split
    · simp only [tsorted, Bool.and_eq_true, decide_eq_true_eq]; exact ⟨hb, by omega, hs.2⟩
    · split
      · subst_vars; simp [tsorted, hb, hs.2]
      · simp only [tsorted, Bool.and_eq_true, decide_eq_true_eq]; exact ⟨hs.1, ih (j + 1) (by omega) hs.2⟩

theorem tsorted_filter (t : Table α) (b : Nat) (p : Nat × α → Bool) (hs : tsorted b t = true) : tsorted b (t.filter p) = true := by
  induction t generalizing b with
  | nil => rfl
  | cons e t ih =>
    obtain ⟨j, w⟩ := e
    simp only [tsorted, Bool.and_eq_true, decide_eq_true_eq] at hs
    rw [List.filter_cons]
    split
    · simp only [tsorted, Bool.and_eq_true, decide_eq_true_eq]; exact ⟨hs.1, ih _ hs.2⟩
    · exact tsorted_mono _ (by omega) (ih (j + 1) hs.2)

theorem tsorted_terase (t : Table α) (b k : Nat) (hs : tsorted b t = true) : tsorted b (terase t k) = true := by
  induction t generalizing b with
  | nil => rfl
  | cons e t ih =>
    obtain ⟨j, w⟩ := e
    simp only [tsorted, Bool.and_eq_true, decide_eq_true_eq] at hs
    unfold terase
    split
    · exact tsorted_mono _ (by omega) (ih (j + 1) hs.2)
    · simp only [tsorted, Bool.and_eq_true, decide_eq_true_eq]; exact ⟨hs.1, ih (j + 1) hs.2⟩

theorem all_tput (t : Table α) (k : Nat) (v : α) (p : Nat × α → Bool) (hv : p (k, v) = true) (ht : t.all p = true) :
    (tput t k v).all p = true := by
  induction t with
  | nil => simp [tput, hv]
  | cons e t ih =>
    obtain ⟨j, w⟩ := e
    simp only [List.all_cons, Bool.and_eq_true] at ht
    unfold tput
    split
    · simp [hv, ht]
    · split <;> simp [hv, ht, ih]

theorem all_terase (t : Table α) (k : Nat) (p : Nat × α → Bool) (ht : t.all p = true) : (terase t k).all p = true := by
  induction t with
  | nil => rfl
  | cons e t ih =>
    obtain ⟨j, w⟩ := e
    simp only [List.all_cons, Bool.and_eq_true] at ht
    unfold terase
    split
    · exact ih ht.2
    · simp [ht, ih]

/-- Writing a table with a default keeps its canonical form. -/
theorem twf_tset [DecidableEq α] (d : α) (t : Table α) (k : Nat) (v : α) (h : twf d t = true) : twf d (tset d t k v) = true := by
  simp only [twf, Bool.and_eq_true] at *
  unfold tset
  split
  · exact ⟨tsorted_terase _ _ _ h.1, all_terase _ _ _ h.2⟩
  · exact ⟨tsorted_tput _ _ _ _ (Nat.zero_le _) h.1, all_tput _ _ _ _ (by simpa using ‹_›) h.2⟩

theorem twf_filter [DecidableEq α] (d : α) (t : Table α) (p : Nat × α → Bool) (h : twf d t = true) : twf d (t.filter p) = true := by
  simp only [twf, Bool.and_eq_true] at *
  exact ⟨tsorted_filter _ _ _ h.1, by simp only [List.all_eq_true, List.mem_filter] at *; exact fun x hx => h.2 x hx.1⟩

/-- A key below the least key of a table is not in it. -/
theorem tfind_below (t : Table α) (b k : Nat) (hs : tsorted b t = true) (h : k < b) : tfind t k = none := by
  induction t generalizing b with
  | nil => rfl
  | cons e t ih =>
    obtain ⟨j, w⟩ := e
    simp only [tsorted, Bool.and_eq_true, decide_eq_true_eq] at hs
    rw [tfind, if_neg (by omega)]
    exact ih (j + 1) hs.2 (by omega)

theorem tfind_terase_self (t : Table α) (k : Nat) : tfind (terase t k) k = none := by
  induction t with
  | nil => rfl
  | cons e t ih =>
    obtain ⟨j, w⟩ := e
    unfold terase
    split
    · exact ih
    · rw [tfind, if_neg ‹_›]; exact ih

theorem tfind_terase_ne (t : Table α) {j k : Nat} (h : j ≠ k) : tfind (terase t k) j = tfind t j := by
  induction t with
  | nil => rfl
  | cons e t ih =>
    obtain ⟨i, w⟩ := e
    unfold terase
    split
    · subst_vars; rw [tfind, if_neg (Ne.symm h)]; exact ih
    · simp only [tfind, ih]

/-- A read of what was written. -/
theorem tget_tset_self [DecidableEq α] (d : α) (t : Table α) (k : Nat) (v : α) : tget d (tset d t k v) k = v := by
  unfold tset tget
  split
  · rw [tfind_terase_self]; simp_all
  · rw [tfind_tput_self]; rfl

/-- A write leaves every other key alone. -/
theorem tget_tset_ne [DecidableEq α] (d : α) (t : Table α) {j k : Nat} (v : α) (h : j ≠ k) : tget d (tset d t k v) j = tget d t j := by
  unfold tset tget
  split
  · rw [tfind_terase_ne t h]
  · rw [tfind_tput_ne t v h]

end Sys2Proof.Machine
end

