-- ==== Sys2Proof/Laws/Meaning.lean ====
section
/-! SUPPORT. What a meaning of a syllable does once its bundle has passed its checks. -/

namespace Sys2Proof.Machine

/-- The effect of a checked syllable runs on the warp at its issue warp time. -/
theorem runSyl_issuing (i : Instr) (s : State) (w : Warp) (f : Warp → State → State) (h : Issuing s w) :
    runSyl i s f = .next (f (s.issuer w) (s.setWarp s.cur (s.issuer w))) := by
  unfold runSyl
  rw [h.1]
  simp only [h.2, if_true]
  rfl

/-- A checked control syllable: the group moves on, the operation acts, a trap after the bundle is taken. -/
theorem runCtl_issuing (i : Instr) (s : State) (w : Warp) (f : Warp → State → State) (h : Issuing s w) :
    runCtl i s f = .next ((f (s.issuer w) (s.setWarp s.cur (s.issuer w)).advance).softTrap (s.issuer w)) :=
  runSyl_issuing i s w _ h

/-- A change of the current warp, when its entry has just been written. -/
theorem modWarp_setWarp (s : State) (g : Nat) (w : Warp) (f : Warp → Warp) : (s.setWarp g w).modWarp g f = s.setWarp g (f w) := by
  unfold State.modWarp State.setWarp
  simp only [tfind_tput_self, tput_tput]

/-- The current warp after its entry has been written. -/
theorem curWarp_setWarp (s : State) (w : Warp) : (s.setWarp s.cur w).curWarp = some w := by
  unfold State.curWarp State.setWarp
  exact tfind_tput_self _ _ _

/-- A result put in flight is in the list, and no other is lost. -/
theorem mem_insertFlight (q x : Result) (l : List Result) : x ∈ insertFlight q l ↔ x = q ∨ x ∈ l := by
  induction l with
  | nil => simp [insertFlight]
  | cons h t ih =>
    unfold insertFlight
    split
    · simp only [List.mem_cons, ih]; tauto
    · simp

end Sys2Proof.Machine
end

