-- ==== Sys2Proof/Laws/Lanes.lean ====
section
/-! SUPPORT. Lane masks, lane tables, and what putting a result in flight does. -/

namespace Sys2Proof.Machine

/-- A lane is in the list of a mask exactly when its bit is set. -/
theorem mem_laneList (m : Lanes) (l : Nat) : l ∈ laneList m ↔ m.getLsbD l = true := by
  unfold laneList
  simp only [List.mem_filter, List.mem_range]
  exact ⟨fun h => h.2, fun h => ⟨BitVec.lt_of_getLsbD h, h⟩⟩

theorem getLsbD_laneBit (k l : Nat) (hk : k < 64) : (laneBit k).getLsbD l = decide (l = k) := by
  unfold laneBit
  rw [BitVec.getLsbD_ofNat]
  simp only [Nat.testBit_two_pow]
  by_cases h : l = k
  · subst h; simp [hk]
  · simp [h, Ne.symm h]

theorem getLsbD_allLanes (l : Nat) : allLanes.getLsbD l = decide (l < 64) := by
  unfold allLanes
  exact BitVec.getLsbD_allOnes ..

/-- A mask holds the lanes that pass its test. -/
theorem getLsbD_maskOf (p : Nat → Bool) (l : Nat) : (maskOf p).getLsbD l = (decide (l < 64) && p l) := by
  have key : ∀ n, n ≤ 64 → ((List.range n).foldl (fun m k => if p k then m ||| laneBit k else m) (0 : Lanes)).getLsbD l
      = (decide (l < n) && p l) := by
    intro n
    induction n with
    | zero => intro _; simp
    | succ n ih =>
      intro hn
      rw [List.range_succ, List.foldl_append]
      simp only [List.foldl_cons, List.foldl_nil]
      by_cases hp : p n
      · rw [if_pos hp, BitVec.getLsbD_or, ih (by omega), getLsbD_laneBit n l (by omega)]
        by_cases hl : l = n
        · subst hl; simp [hp]
        · have : decide (l < n + 1) = decide (l < n) := by
            simp only [decide_eq_decide]; omega
          rw [this]; simp [hl]
      · rw [if_neg hp, ih (by omega)]
        by_cases hl : l = n
        · subst hl; simp [hp]
        · have : decide (l < n + 1) = decide (l < n) := by
            simp only [decide_eq_decide]; omega
          rw [this]
  exact key 64 (Nat.le_refl _)

theorem tfind_filterMap {α : Type} (f : Nat → Option α) (k : Nat) (ls : List Nat) (h : k ∈ ls) :
    tfind (ls.filterMap fun l => (f l).map fun v => (l, v)) k = f k := by
  induction ls with
  | nil => simp at h
  | cons a t ih =>
    by_cases ha : a = k
    · subst ha
      cases hf : f a with
      | some v => simp [hf, tfind]
      | none =>
        simp only [List.filterMap_cons, hf, Option.map_none]
        by_cases hm : a ∈ t
        · rw [ih hm, hf]
        · clear ih h
          induction t with
          | nil => rfl
          | cons b t ih2 =>
            have hb : b ≠ a := fun e => hm (e ▸ List.mem_cons_self)
            cases hg : f b with
            | some v =>
              simp only [List.filterMap_cons, hg, Option.map_some, tfind, if_neg hb]
              exact ih2 (fun e => hm (List.mem_cons_of_mem _ e))
            | none =>
              simp only [List.filterMap_cons, hg, Option.map_none]
              exact ih2 (fun e => hm (List.mem_cons_of_mem _ e))
    · have hm : k ∈ t := by
        cases h with
        | head => exact absurd rfl ha
        | tail _ h => exact h
      cases hf : f a with
      | some v => simp only [List.filterMap_cons, hf, Option.map_some, tfind, if_neg ha]; exact ih hm
      | none => simp only [List.filterMap_cons, hf, Option.map_none]; exact ih hm

theorem tfind_filterMap_not {α : Type} (f : Nat → Option α) (k : Nat) (ls : List Nat) (h : k ∉ ls) :
    tfind (ls.filterMap fun l => (f l).map fun v => (l, v)) k = none := by
  induction ls with
  | nil => rfl
  | cons a t ih =>
    have ha : a ≠ k := fun e => h (e ▸ List.mem_cons_self)
    have ht : k ∉ t := fun e => h (List.mem_cons_of_mem _ e)
    cases hf : f a with
    | some v => simp only [List.filterMap_cons, hf, Option.map_some, tfind, if_neg ha]; exact ih ht
    | none => simp only [List.filterMap_cons, hf, Option.map_none]; exact ih ht

/-- A lane table holds the value of each lane of its mask and the default elsewhere. -/
theorem tget_laneTable {α : Type} [DecidableEq α] (d : α) (m : Lanes) (f : Nat → α) (l : Nat) :
    tget d (laneTable d m f) l = if m.getLsbD l then f l else d := by
  unfold tget laneTable
  have he : (fun l => if f l = d then none else some (l, f l)) =
      fun l => ((fun l => if f l = d then none else some (f l)) l).map fun v => (l, v) := by
    funext l; by_cases h : f l = d <;> simp [h]
  rw [he]
  by_cases hm : l ∈ laneList m
  · rw [tfind_filterMap _ _ _ hm, if_pos ((mem_laneList m l).1 hm)]
    by_cases h : f l = d <;> simp [h]
  · rw [tfind_filterMap_not _ _ _ hm, if_neg (fun h => hm ((mem_laneList m l).2 h))]
    rfl

/-- A result put in flight by the warp that issues changes that warp's entry and the next identity only. -/
theorem launchCur_setWarp (s : State) (x : Warp) (f : Nat → Warp → Regs) :
    (s.setWarp s.cur x).launchCur f =
      { s with warps := tput s.warps s.cur { x with r := f s.nextId x }, nextId := s.nextId + 1 } := by
  show { (s.setWarp s.cur x).modWarp s.cur (fun w => { w with r := f s.nextId w }) with nextId := s.nextId + 1 } = _
  rw [modWarp_setWarp]
  rfl

end Sys2Proof.Machine
end

