-- ==== Sys2Proof/Laws/Access.lean ====
section
/-! SUPPORT. What issuing a memory-slot instruction and asking for a register result do. -/

namespace Sys2Proof.Machine

theorem pending_setPending (r : Regs) (k p j : Nat) : (r.setPending k p).pending j = if j = k then p else r.pending j := by
  unfold Regs.setPending Regs.pending
  by_cases h : j = k
  · subst h; rw [if_pos rfl, tget_tset_self]
  · rw [if_neg h, tget_tset_ne _ _ _ h]

/-- The lanes of one V register await an operation. -/
theorem emptyVLanes_spec (n op : Nat) (ls : List Nat) (r : Regs) :
    let q := ls.foldl (fun r l => r.setPending (vKey n l) (op + 1)) r
    q = { r with pend := q.pend } ∧
      ∀ key, q.pending key = if ∃ l ∈ ls, key = vKey n l then op + 1 else r.pending key := by
  induction ls generalizing r with
  | nil => exact ⟨rfl, fun key => by simp⟩
  | cons a t ih =>
    obtain ⟨h1, h2⟩ := ih (r.setPending (vKey n a) (op + 1))
    refine ⟨h1.trans rfl, fun key => (h2 key).trans ?_⟩
    rw [pending_setPending]
    by_cases ht : ∃ l ∈ t, key = vKey n l
    · rw [if_pos ht, if_pos (by obtain ⟨l, hl, e⟩ := ht; exact ⟨l, List.mem_cons_of_mem _ hl, e⟩)]
    · rw [if_neg ht]
      by_cases ha : key = vKey n a
      · rw [if_pos ha, if_pos ⟨a, List.mem_cons_self, ha⟩]
      · rw [if_neg ha, if_neg]
        rintro ⟨l, hl, e⟩
        cases hl with
        | head => exact ha e
        | tail _ hl => exact ht ⟨l, hl, e⟩

/-- Registers marked empty await their operation, and nothing else changes. -/
theorem emptyCode_awaits (r : Regs) (id code words : Nat) (act : Lanes) : Awaits r (r.emptyCode id code words act) id code words act := by
  have key : ∀ n, (r.emptyCode id code n act) = { r with pend := (r.emptyCode id code n act).pend } ∧
      ∀ key, (namesKey code n act key → (r.emptyCode id code n act).pending key = id + 1) ∧
        (¬ namesKey code n act key → (r.emptyCode id code n act).pending key = r.pending key) := by
    intro n
    induction n with
    | zero => exact ⟨rfl, fun key => ⟨fun ⟨k, hk, _⟩ => by omega, fun _ => rfl⟩⟩
    | succ n ih =>
      have e : r.emptyCode id code (n + 1) act = (if code < 192 then (r.emptyCode id code n act).emptyVLanes (code + n) act id
          else if code < 240 then (r.emptyCode id code n act).emptySReg (code - 192 + n) id else r.emptyCode id code n act) := by
        unfold Regs.emptyCode
        rw [List.range_succ, List.foldl_append]
        rfl
      rw [e]
      generalize r.emptyCode id code n act = q at ih
      have mono : ∀ key, namesKey code n act key → namesKey code (n + 1) act key := fun key ⟨k, hk, h⟩ => ⟨k, by omega, h⟩
      by_cases h1 : code < 192
      · rw [if_pos h1]
        obtain ⟨p1, p2⟩ := emptyVLanes_spec (code + n) id (laneList act) q
        have q1 : q.emptyVLanes (code + n) act id = { q with pend := (q.emptyVLanes (code + n) act id).pend } := p1
        have q2 : ∀ key, (q.emptyVLanes (code + n) act id).pending key =
            if ∃ l ∈ laneList act, key = vKey (code + n) l then id + 1 else q.pending key := p2
        refine ⟨by rw [q1, ih.1], fun key => ⟨fun hk => ?_, fun hk => ?_⟩⟩
        · rw [q2]
          by_cases hx : ∃ l ∈ laneList act, key = vKey (code + n) l
          · rw [if_pos hx]
          · rw [if_neg hx]
            refine (ih.2 key).1 ?_
            obtain ⟨k, hk1, hk2⟩ := hk
            rcases hk2 with ⟨hc, l, hl, e1⟩ | ⟨hc, _⟩
            · refine ⟨k, ?_, Or.inl ⟨hc, l, hl, e1⟩⟩
              by_contra hn
              have hkn : k = n := by omega
              subst hkn
              exact hx ⟨l, (mem_laneList act l).2 hl, e1⟩
            · omega
        · rw [q2, if_neg]
          · exact (ih.2 key).2 fun h => hk (mono key h)
          · rintro ⟨l, hl, e1⟩
            exact hk ⟨n, by omega, Or.inl ⟨h1, l, (mem_laneList act l).1 hl, e1⟩⟩
      · rw [if_neg h1]
        by_cases h2 : code < 240
        · rw [if_pos h2]
          unfold Regs.emptySReg
          refine ⟨by rw [show q.setPending (sKey (code - 192 + n)) (id + 1) = { q with pend := (q.setPending (sKey (code - 192 + n)) (id + 1)).pend } from rfl, ih.1], fun key => ⟨fun hk => ?_, fun hk => ?_⟩⟩
          · rw [pending_setPending]
            by_cases hx : key = sKey (code - 192 + n)
            · rw [if_pos hx]
            · rw [if_neg hx]
              refine (ih.2 key).1 ?_
              obtain ⟨k, hk1, hk2⟩ := hk
              rcases hk2 with ⟨hc, _⟩ | ⟨hc, hd, e1⟩
              · omega
              · refine ⟨k, ?_, Or.inr ⟨hc, hd, e1⟩⟩
                by_contra hn
                have hkn : k = n := by omega
                subst hkn
                exact hx e1
          · rw [pending_setPending, if_neg]
            · exact (ih.2 key).2 fun h => hk (mono key h)
            · intro e1
              exact hk ⟨n, by omega, Or.inr ⟨by omega, h2, e1⟩⟩
        · rw [if_neg h2]
          refine ⟨ih.1, fun key => ⟨fun hk => (ih.2 key).1 ?_, fun hk => (ih.2 key).2 fun h => hk (mono key h)⟩⟩
          obtain ⟨k, hk1, hk2⟩ := hk
          rcases hk2 with ⟨hc, _⟩ | ⟨_, hd, _⟩
          · omega
          · omega
  exact ⟨(key words).1, fun k h => ((key words).2 k).1 h, fun k h => ((key words).2 k).2 h⟩

/-- An operation that holds later issue is added to those that still hold it. -/
theorem hold_eq (s : State) (w : Warp) (id : Nat) (holds : Bool) :
    w.hold s id holds = { w with holdOp := if holds then heldStill s w ++ [id] else w.holdOp } := by
  cases holds <;> rfl

/-- A memory-slot instruction with an active lane goes into flight as the operation of its form; precise memory mode translates it
at once. -/
theorem issueMem_flies (s : State) (w : Warp) (i : Instr) (f : Syl) (m : MemForm) (h : Shape)
    (hp : w.precise = false) (ha : (s.issuer w).r.active f.g1 f.g2 ≠ 0) :
    let act := (s.issuer w).r.active f.g1 f.g2
    let o := memOpOf (s.setWarp s.cur (s.issuer w)) (s.issuer w) i f m (memScalar i h f) act
    Flies s ((s.setWarp s.cur (s.issuer w)).issueMem (s.issuer w) i f m h) w o o.dest o.words act m.kind.holds := by
  intro act o
  refine ⟨_, emptyCode_awaits _ _ _ _ _, ?_⟩
  have hp' : (s.issuer w).precise = false := hp
  unfold State.issueMem
  simp only [ha, hp', if_false, Bool.false_eq_true]
  simp only [State.countMem, State.modWarp, State.setWarp, tfind_tput_self, tput_tput, hold_eq]
  congr 3

/-- With no active lane it only counts. -/
theorem issueMem_idle (s : State) (w : Warp) (i : Instr) (f : Syl) (m : MemForm) (h : Shape)
    (ha : (s.issuer w).r.active f.g1 f.g2 = 0) :
    (s.setWarp s.cur (s.issuer w)).issueMem (s.issuer w) i f m h =
      s.setWarp s.cur { s.issuer w with memSeq := w.memSeq + 1 } := by
  unfold State.issueMem
  simp only [ha, if_true]
  unfold State.countMem
  exact modWarp_setWarp s s.cur _ _

/-- A reply is kept under the next identity, and its registers await it. -/
theorem issueReply_replies (s : State) (w : Warp) (code count : Nat) (lanes : Lanes) (vals : Table Word) (ready entry one : Bool) :
    Replies s ((s.setWarp s.cur (s.issuer w)).issueReply s.cur code count lanes vals ready entry) w code count one lanes ready
      fun k l => tget 0 vals (64 * k + (if one then 0 else l)) := by
  unfold State.issueReply
  simp only [modWarp_setWarp]
  exact ⟨s.nextId, _, Nat.le_refl _, Nat.lt_succ_self _, tfind_tput_self _ _ _, rfl, rfl, rfl, rfl, rfl, fun _ _ _ _ => rfl,
    _, tfind_tput_self _ _ _, emptyCode_awaits _ _ _ _ _⟩

end Sys2Proof.Machine
end

