-- ==== Sys2Proof/Laws/Encoding.lean ====
section
/-! SUPPORT. The words of syllables as numbers, and the fields that the decoder reads from them (R44, R49). -/

namespace Sys2Proof.Laws

open Sys2Proof

/-- A concatenation as a number. -/
theorem concat_toNat {n m : Nat} (x : BitVec n) (y : BitVec m) : (x ++ y).toNat = x.toNat * 2 ^ m + y.toNat := by
  rw [BitVec.toNat_append, ← Nat.shiftLeft_add_eq_or_of_lt y.isLt, Nat.shiftLeft_eq]

/-- A field as a number. -/
theorem fieldOf_toNat (lo n : Nat) (w : DWord) : (fieldOf lo n w).toNat = w.toNat / 2 ^ lo % 2 ^ n := by
  rw [fieldOf, BitVec.extractLsb'_toNat, Nat.shiftRight_eq_div_pow]

/-- One bit as a number. -/
theorem bit_toNat (i : Nat) (w : DWord) : (w.getLsbD i).toNat = w.toNat / 2 ^ i % 2 := by
  rw [← BitVec.testBit_toNat, Nat.toNat_testBit]

/-- A syllable's word as a number, by the layout of R44. -/
theorem sylWord_toNat (op : Nat) (f : Syl) : (sylWord op f).toNat =
    (((((((((((op % 2 ^ 8 * 2 ^ 4 + f.g1.toNat) * 2 ^ 4 + f.g2.toNat) * 2 ^ 8 + f.d.toNat) * 2 ^ 8 + f.a.toNat) * 2 ^ 8 + f.b.toNat) *
      2 ^ 8 + f.c.toNat) * 2 ^ 8 + f.e.toNat) * 2 ^ 1 + f.xa.toNat) * 2 ^ 1 + f.xb.toNat) * 2 ^ 1 + f.xc.toNat) * 2 ^ 3 + f.m.toNat) * 2 ^ 2 +
      f.h.toNat := by
  refine (concat_toNat (BitVec.ofNat 8 op ++ f.g1 ++ f.g2 ++ f.d ++ f.a ++ f.b ++ f.c ++ f.e ++ BitVec.ofBool f.xa ++
    BitVec.ofBool f.xb ++ BitVec.ofBool f.xc ++ f.m) f.h).trans ?_
  simp only [concat_toNat, BitVec.toNat_ofNat, BitVec.toNat_ofBool]

/-- A control syllable's word as a number, by the layout of R49. -/
theorem ctlWord_toNat (op : Nat) (f : Ctl) : (ctlWord op f).toNat =
    (((((((op % 2 ^ 8 * 2 ^ 4 + f.g1.toNat) * 2 ^ 4 + f.g2.toNat) * 2 ^ 3 + f.gap.toNat) * 2 ^ 1 + f.land.toNat) * 2 ^ 1 + f.yield.toNat) *
      2 ^ 3 + 0) * 2 ^ 8 + f.a.toNat) * 2 ^ 32 + f.imm.toNat := by
  refine (concat_toNat (BitVec.ofNat 8 op ++ f.g1 ++ f.g2 ++ f.gap ++ BitVec.ofBool f.land ++ BitVec.ofBool f.yield ++
    (0 : BitVec 3) ++ f.a) f.imm).trans ?_
  simp only [concat_toNat, BitVec.toNat_ofNat, BitVec.toNat_ofBool]
  rfl

/-- A field with the value of x is x. -/
theorem fieldOf_eq {lo n : Nat} {w : DWord} {x : BitVec n} (h : w.toNat / 2 ^ lo % 2 ^ n = x.toNat) : fieldOf lo n w = x :=
  BitVec.eq_of_toNat_eq ((fieldOf_toNat lo n w).trans h)

/-- A bit with the value of b is b. -/
theorem bit_eq {i : Nat} {w : DWord} {b : Bool} (h : w.toNat / 2 ^ i % 2 = b.toNat) : w.getLsbD i = b := by
  rw [← bit_toNat] at h
  revert h
  cases w.getLsbD i <;> cases b <;> decide

/-- The fields of a syllable's word are those it was made of. -/
theorem sylFields_sylWord (op : Nat) (f : Syl) : sylFields (sylWord op f) = f := by
  have hw := sylWord_toNat op f
  have := f.g1.isLt; have := f.g2.isLt; have := f.d.isLt; have := f.a.isLt; have := f.b.isLt; have := f.c.isLt
  have := f.e.isLt; have := f.m.isLt; have := f.h.isLt
  have := Bool.toNat_lt f.xa; have := Bool.toNat_lt f.xb; have := Bool.toNat_lt f.xc
  have g1 : fieldOf 52 4 (sylWord op f) = f.g1 := fieldOf_eq (by omega)
  have g2 : fieldOf 48 4 (sylWord op f) = f.g2 := fieldOf_eq (by omega)
  have d : fieldOf 40 8 (sylWord op f) = f.d := fieldOf_eq (by omega)
  have a : fieldOf 32 8 (sylWord op f) = f.a := fieldOf_eq (by omega)
  have b : fieldOf 24 8 (sylWord op f) = f.b := fieldOf_eq (by omega)
  have c : fieldOf 16 8 (sylWord op f) = f.c := fieldOf_eq (by omega)
  have e : fieldOf 8 8 (sylWord op f) = f.e := fieldOf_eq (by omega)
  have xa : (sylWord op f).getLsbD 7 = f.xa := bit_eq (by omega)
  have xb : (sylWord op f).getLsbD 6 = f.xb := bit_eq (by omega)
  have xc : (sylWord op f).getLsbD 5 = f.xc := bit_eq (by omega)
  have m : fieldOf 2 3 (sylWord op f) = f.m := fieldOf_eq (by omega)
  have h : fieldOf 0 2 (sylWord op f) = f.h := fieldOf_eq (by omega)
  unfold sylFields
  rw [g1, g2, d, a, b, c, e, xa, xb, xc, m, h]

theorem opField_sylWord (op : Nat) (f : Syl) : opField (sylWord op f) = op % 256 := by
  have := f.g1.isLt; have := f.g2.isLt; have := f.d.isLt; have := f.a.isLt; have := f.b.isLt; have := f.c.isLt
  have := f.e.isLt; have := f.m.isLt; have := f.h.isLt
  have := Bool.toNat_lt f.xa; have := Bool.toNat_lt f.xb; have := Bool.toNat_lt f.xc
  rw [opField, fieldOf_toNat, sylWord_toNat]
  omega

/-- The fields of a control syllable's word are those it was made of. -/
theorem ctlFields_ctlWord (op : Nat) (f : Ctl) : ctlFields (ctlWord op f) = f := by
  have hw := ctlWord_toNat op f
  have := f.g1.isLt; have := f.g2.isLt; have := f.gap.isLt; have := f.a.isLt; have := f.imm.isLt
  have := Bool.toNat_lt f.land; have := Bool.toNat_lt f.yield
  have g1 : fieldOf 52 4 (ctlWord op f) = f.g1 := fieldOf_eq (by omega)
  have g2 : fieldOf 48 4 (ctlWord op f) = f.g2 := fieldOf_eq (by omega)
  have gap : fieldOf 45 3 (ctlWord op f) = f.gap := fieldOf_eq (by omega)
  have land : (ctlWord op f).getLsbD 44 = f.land := bit_eq (by omega)
  have yield : (ctlWord op f).getLsbD 43 = f.yield := bit_eq (by omega)
  have a : fieldOf 32 8 (ctlWord op f) = f.a := fieldOf_eq (by omega)
  have imm : fieldOf 0 32 (ctlWord op f) = f.imm := fieldOf_eq (by omega)
  unfold ctlFields
  rw [g1, g2, gap, land, yield, a, imm]

theorem opField_ctlWord (op : Nat) (f : Ctl) : opField (ctlWord op f) = op % 256 := by
  have := f.g1.isLt; have := f.g2.isLt; have := f.gap.isLt; have := f.a.isLt; have := f.imm.isLt
  have := Bool.toNat_lt f.land; have := Bool.toNat_lt f.yield
  rw [opField, fieldOf_toNat, ctlWord_toNat]
  omega

/-- The reserved bits of a control word are zero. -/
theorem reservedBits_ctlWord (op : Nat) (f : Ctl) : fieldOf 40 3 (ctlWord op f) = 0 := by
  have := f.a.isLt; have := f.imm.isLt
  refine fieldOf_eq ?_
  rw [ctlWord_toNat, show (0 : BitVec 3).toNat = 0 from rfl]
  omega

end Sys2Proof.Laws
end

