-- ==== Sys2Proof/Laws/Memory.lean ====
section
/-! SUPPORT. Memory keeps its canonical form under every operation on it, and reads what was written. -/

namespace Sys2Proof.Machine

theorem Memory.wf_tset (m : Memory) (k : Nat) (v : Byte) (h : Memory.wf m = true) : Memory.wf (tset Memory.blank m k v) = true :=
  twf_tset _ _ _ _ h

theorem Memory.wf_filter (m : Memory) (p : Nat × Byte → Bool) (h : Memory.wf m = true) : Memory.wf (m.filter p) = true :=
  twf_filter _ _ _ h

/-- Writes one after the other keep the form. -/
theorem Memory.wf_foldl {β : Type} (l : List β) (key : β → Nat) (val : β → Byte) (m : Memory) (h : Memory.wf m = true) :
    Memory.wf (l.foldl (fun m e => tset Memory.blank m (key e) (val e)) m) = true := by
  induction l generalizing m with
  | nil => exact h
  | cons e t ih => exact ih _ (Memory.wf_tset _ _ _ h)

theorem State.reset_mem_wf : Memory.wf State.reset.mem = true := rfl

/-- Writing a dirty line back. -/
theorem State.writeBackLine_wf (s : State) (line : Nat) (h : Memory.wf s.mem = true) : Memory.wf (s.writeBackLine line).mem = true := by
  unfold State.writeBackLine
  generalize s.l2.filter (fun e => lineOf e.1 == line) = l
  induction l generalizing s with
  | nil => exact h
  | cons e t ih =>
    rw [List.foldl_cons]
    exact ih _ (Memory.wf_tset _ _ _ h)

theorem putBytes_wf (m : Memory) (at_ : Nat) (bs : List Byte) (h : Memory.wf m = true) : Memory.wf (putBytes m at_ bs) = true :=
  Memory.wf_foldl _ (fun e : Byte × Nat => at_ + e.2) (fun e => e.1) m h

theorem putEntries_wf (place : Nat → Nat) (es : List (Nat × Nat)) (m : Memory) (h : Memory.wf m = true) :
    Memory.wf (putEntries place es m) = true := by
  unfold putEntries
  induction es generalizing m with
  | nil => exact h
  | cons e t ih => exact ih _ (putBytes_wf _ _ _ h)

theorem clearPages_wf (place : Nat → Nat) (m : Memory) (h : Memory.wf m = true) : Memory.wf (clearPages place m) = true := by
  unfold clearPages
  generalize List.range 6 = l
  induction l generalizing m with
  | nil => exact h
  | cons e t ih => exact ih _ (Memory.wf_filter _ _ h)

theorem putTables_wf (m : Memory) (h : Memory.wf m = true) : Memory.wf (putTables m) = true :=
  putEntries_wf _ _ _ (putEntries_wf _ _ _ (clearPages_wf _ _ (clearPages_wf _ _ h)))

theorem copyOut_wf (m : Memory) (h : Memory.wf m = true) : Memory.wf (copyOut m) = true :=
  Memory.wf_foldl _ (fun e : Nat × Byte => tierPlace e.1) (fun e => e.2) _ (Memory.wf_filter _ _ h)

theorem copyBack_wf (m : Memory) (h : Memory.wf m = true) : Memory.wf (copyBack m) = true :=
  Memory.wf_foldl _ (fun e : Nat × Byte => tierBack e.1) (fun e => e.2) _ (Memory.wf_filter _ _ h)

/-- A byte written at its home reads back. -/
@[simp] theorem State.homeByte_setHomeByte_self (s : State) (k : Nat) (b : Byte) : (s.setHomeByte k b).homeByte k = b := by
  simp [State.homeByte, State.setHomeByte, tfind_tput_self]

/-- A write at one home leaves every other byte alone. -/
theorem State.homeByte_setHomeByte_ne (s : State) {j k : Nat} (b : Byte) (h : j ≠ k) : (s.setHomeByte k b).homeByte j = s.homeByte j := by
  simp [State.homeByte, State.setHomeByte, tfind_tput_ne _ _ h]

end Sys2Proof.Machine
end

