-- ==== Sys2Proof/Laws/PerInstr.lean ====
section
/-! SUPPORT. The family Encoding, by instruction: a well-formed instruction is read back from its own word. -/

namespace Sys2Proof.Laws

open Sys2Proof

/-- A word whose opcode and fields give i, and whose reserved bits are zero, decodes to i when i is well formed. -/
theorem decode_of_raw (slot : Slot) (i : Instr) (w : DWord) (hraw : rawSyllable slot w = some i)
    (hw : wordReasons slot w = []) (wf : WellFormed i) : decodeSyllable slot w = .ok i := by
  have h : minReason (syllableReasons slot w) = none := by
    unfold syllableReasons
    rw [hraw]
    simp only [hw, List.nil_append]
    exact wf
  unfold decodeSyllable
  rw [hraw, h]

/-- Only control words have reserved bits. -/
theorem wordReasons_data (slot : Slot) (h : (slot == .control) = false) (w : DWord) : wordReasons slot w = [] := by
  simp [wordReasons, h, reasonIf]

theorem wordReasons_ctl (op : Nat) (f : Ctl) : wordReasons .control (ctlWord op f) = [] := by
  simp [wordReasons, reservedBits_ctlWord, reasonIf]

end Sys2Proof.Laws

/-- Decoding the word of a well-formed instruction of a slot gives the instruction. -/
def Sys2Proof.Laws.Encoding.Statement (i : Sys2Proof.Instr) : Prop :=
  ∀ slot, Sys2Proof.slotOf i = some slot → Sys2Proof.WellFormed i →
    Sys2Proof.decodeSyllable slot (Sys2Proof.encode i) = .ok i

namespace Sys2Proof.Laws.Encoding

open Sys2Proof

/-- The opcode map of a data slot. -/
def dataOp (slot : Slot) (f : Syl) (op : Nat) : Option Instr :=
  match slot with
  | .vector => vectorOp f op
  | .memory => memoryOp f op
  | .engine => engineOp f op
  | .control => none

theorem of_syl (slot : Slot) (op : Nat) (i : Instr) (f : Syl) (hs : (slot == .control) = false) (hop : op < 256)
    (hv : view i = .syl slot op f) (hr : dataOp slot f op = some i) : Statement i := by
  intro sl h wf
  rw [slotOf, hv] at h
  obtain rfl : slot = sl := Option.some.inj h
  have he : encode i = sylWord op f := by rw [encode, hv]
  rw [he]
  refine decode_of_raw _ _ _ ?_ (wordReasons_data _ hs _) wf
  cases slot with
  | control => cases hs
  | vector => rw [rawSyllable, sylFields_sylWord, opField_sylWord, Nat.mod_eq_of_lt hop]; exact hr
  | memory => rw [rawSyllable, sylFields_sylWord, opField_sylWord, Nat.mod_eq_of_lt hop]; exact hr
  | engine => rw [rawSyllable, sylFields_sylWord, opField_sylWord, Nat.mod_eq_of_lt hop]; exact hr

theorem of_ctl (op : Nat) (i : Instr) (f : Ctl) (hop : op < 256) (hv : view i = .ctl op f)
    (hr : controlOp f op = some i) : Statement i := by
  intro sl h wf
  rw [slotOf, hv] at h
  obtain rfl : Slot.control = sl := Option.some.inj h
  have he : encode i = ctlWord op f := by rw [encode, hv]
  rw [he]
  refine decode_of_raw _ _ _ ?_ (wordReasons_ctl _ f) wf
  rw [rawSyllable, ctlFields_ctlWord, opField_ctlWord, Nat.mod_eq_of_lt hop]
  exact hr

theorem of_event (i : Instr) (hv : view i = .event) : Statement i := by
  intro sl h
  rw [slotOf, hv] at h
  cases h

theorem vnop (f : Syl) : Statement (.vnop f) := of_syl .vector 0x00 _ f rfl (by decide) rfl rfl
theorem vadd (f : Syl) : Statement (.vadd f) := of_syl .vector 0x01 _ f rfl (by decide) rfl rfl
theorem vsub (f : Syl) : Statement (.vsub f) := of_syl .vector 0x02 _ f rfl (by decide) rfl rfl
theorem vaddc (f : Syl) : Statement (.vaddc f) := of_syl .vector 0x03 _ f rfl (by decide) rfl rfl
theorem vmul (f : Syl) : Statement (.vmul f) := of_syl .vector 0x04 _ f rfl (by decide) rfl rfl
theorem vmulh (f : Syl) : Statement (.vmulh f) := of_syl .vector 0x05 _ f rfl (by decide) rfl rfl
theorem vmulw (f : Syl) : Statement (.vmulw f) := of_syl .vector 0x06 _ f rfl (by decide) rfl rfl
theorem vmad (f : Syl) : Statement (.vmad f) := of_syl .vector 0x07 _ f rfl (by decide) rfl rfl
theorem vmin (f : Syl) : Statement (.vmin f) := of_syl .vector 0x08 _ f rfl (by decide) rfl rfl
theorem vmax (f : Syl) : Statement (.vmax f) := of_syl .vector 0x09 _ f rfl (by decide) rfl rfl
theorem vabsd (f : Syl) : Statement (.vabsd f) := of_syl .vector 0x0A _ f rfl (by decide) rfl rfl
theorem vclamp (f : Syl) : Statement (.vclamp f) := of_syl .vector 0x19 _ f rfl (by decide) rfl rfl
theorem vand (f : Syl) : Statement (.vand f) := of_syl .vector 0x0B _ f rfl (by decide) rfl rfl
theorem vor (f : Syl) : Statement (.vor f) := of_syl .vector 0x0C _ f rfl (by decide) rfl rfl
theorem vxor (f : Syl) : Statement (.vxor f) := of_syl .vector 0x0D _ f rfl (by decide) rfl rfl
theorem vandn (f : Syl) : Statement (.vandn f) := of_syl .vector 0x0E _ f rfl (by decide) rfl rfl
theorem vshl (f : Syl) : Statement (.vshl f) := of_syl .vector 0x0F _ f rfl (by decide) rfl rfl
theorem vshr (f : Syl) : Statement (.vshr f) := of_syl .vector 0x10 _ f rfl (by decide) rfl rfl
theorem vbfe (f : Syl) : Statement (.vbfe f) := of_syl .vector 0x11 _ f rfl (by decide) rfl rfl
theorem vbfi (f : Syl) : Statement (.vbfi f) := of_syl .vector 0x12 _ f rfl (by decide) rfl rfl
theorem vpopc (f : Syl) : Statement (.vpopc f) := of_syl .vector 0x13 _ f rfl (by decide) rfl rfl
theorem vclz (f : Syl) : Statement (.vclz f) := of_syl .vector 0x14 _ f rfl (by decide) rfl rfl
theorem vbrev (f : Syl) : Statement (.vbrev f) := of_syl .vector 0x15 _ f rfl (by decide) rfl rfl
theorem vsel (f : Syl) : Statement (.vsel f) := of_syl .vector 0x16 _ f rfl (by decide) rfl rfl
theorem vcmp (f : Syl) : Statement (.vcmp f) := of_syl .vector 0x17 _ f rfl (by decide) rfl rfl
theorem vmov (f : Syl) : Statement (.vmov f) := of_syl .vector 0x18 _ f rfl (by decide) rfl rfl
theorem vperm (f : Syl) : Statement (.vperm f) := of_syl .vector 0x1A _ f rfl (by decide) rfl rfl
theorem vreq (f : Syl) : Statement (.vreq f) := of_syl .vector 0x1B _ f rfl (by decide) rfl rfl
theorem vfadd (f : Syl) : Statement (.vfadd f) := of_syl .vector 0x20 _ f rfl (by decide) rfl rfl
theorem vfsub (f : Syl) : Statement (.vfsub f) := of_syl .vector 0x21 _ f rfl (by decide) rfl rfl
theorem vfmul (f : Syl) : Statement (.vfmul f) := of_syl .vector 0x22 _ f rfl (by decide) rfl rfl
theorem vfma (f : Syl) : Statement (.vfma f) := of_syl .vector 0x23 _ f rfl (by decide) rfl rfl
theorem vfmin (f : Syl) : Statement (.vfmin f) := of_syl .vector 0x24 _ f rfl (by decide) rfl rfl
theorem vfmax (f : Syl) : Statement (.vfmax f) := of_syl .vector 0x25 _ f rfl (by decide) rfl rfl
theorem vfcmp (f : Syl) : Statement (.vfcmp f) := of_syl .vector 0x26 _ f rfl (by decide) rfl rfl
theorem vfclass (f : Syl) : Statement (.vfclass f) := of_syl .vector 0x27 _ f rfl (by decide) rfl rfl
theorem vfrnd (f : Syl) : Statement (.vfrnd f) := of_syl .vector 0x28 _ f rfl (by decide) rfl rfl
theorem vdadd (f : Syl) : Statement (.vdadd f) := of_syl .vector 0x30 _ f rfl (by decide) rfl rfl
theorem vdmul (f : Syl) : Statement (.vdmul f) := of_syl .vector 0x31 _ f rfl (by decide) rfl rfl
theorem vdfma (f : Syl) : Statement (.vdfma f) := of_syl .vector 0x32 _ f rfl (by decide) rfl rfl
theorem vdmin (f : Syl) : Statement (.vdmin f) := of_syl .vector 0x33 _ f rfl (by decide) rfl rfl
theorem vdmax (f : Syl) : Statement (.vdmax f) := of_syl .vector 0x34 _ f rfl (by decide) rfl rfl
theorem vdcmp (f : Syl) : Statement (.vdcmp f) := of_syl .vector 0x35 _ f rfl (by decide) rfl rfl
theorem vhadd2 (f : Syl) : Statement (.vhadd2 f) := of_syl .vector 0x38 _ f rfl (by decide) rfl rfl
theorem vhmul2 (f : Syl) : Statement (.vhmul2 f) := of_syl .vector 0x39 _ f rfl (by decide) rfl rfl
theorem vhfma2 (f : Syl) : Statement (.vhfma2 f) := of_syl .vector 0x3A _ f rfl (by decide) rfl rfl
theorem vbfma2 (f : Syl) : Statement (.vbfma2 f) := of_syl .vector 0x3B _ f rfl (by decide) rfl rfl
theorem vcvt (f : Syl) : Statement (.vcvt f) := of_syl .vector 0x40 _ f rfl (by decide) rfl rfl
theorem vpack (f : Syl) : Statement (.vpack f) := of_syl .vector 0x41 _ f rfl (by decide) rfl rfl
theorem vunpk (f : Syl) : Statement (.vunpk f) := of_syl .vector 0x42 _ f rfl (by decide) rfl rfl
theorem vrcp (f : Syl) : Statement (.vrcp f) := of_syl .vector 0x48 _ f rfl (by decide) rfl rfl
theorem vrsq (f : Syl) : Statement (.vrsq f) := of_syl .vector 0x49 _ f rfl (by decide) rfl rfl
theorem vsqrt (f : Syl) : Statement (.vsqrt f) := of_syl .vector 0x4A _ f rfl (by decide) rfl rfl
theorem vexp2 (f : Syl) : Statement (.vexp2 f) := of_syl .vector 0x4B _ f rfl (by decide) rfl rfl
theorem vlog2 (f : Syl) : Statement (.vlog2 f) := of_syl .vector 0x4C _ f rfl (by decide) rfl rfl
theorem vsin (f : Syl) : Statement (.vsin f) := of_syl .vector 0x4D _ f rfl (by decide) rfl rfl
theorem vtanh (f : Syl) : Statement (.vtanh f) := of_syl .vector 0x4E _ f rfl (by decide) rfl rfl
theorem vshfl (f : Syl) : Statement (.vshfl f) := of_syl .vector 0x50 _ f rfl (by decide) rfl rfl
theorem vred (f : Syl) : Statement (.vred f) := of_syl .vector 0x51 _ f rfl (by decide) rfl rfl
theorem vscan (f : Syl) : Statement (.vscan f) := of_syl .vector 0x52 _ f rfl (by decide) rfl rfl
theorem vballot (f : Syl) : Statement (.vballot f) := of_syl .vector 0x53 _ f rfl (by decide) rfl rfl
theorem vmatch (f : Syl) : Statement (.vmatch f) := of_syl .vector 0x54 _ f rfl (by decide) rfl rfl
theorem vote (f : Syl) : Statement (.vote f) := of_syl .vector 0x55 _ f rfl (by decide) rfl rfl
theorem vplog (f : Syl) : Statement (.vplog f) := of_syl .vector 0x56 _ f rfl (by decide) rfl rfl
theorem vpmov (f : Syl) : Statement (.vpmov f) := of_syl .vector 0x57 _ f rfl (by decide) rfl rfl
theorem mnop (f : Syl) : Statement (.mnop f) := of_syl .memory 0x00 _ f rfl (by decide) rfl rfl
theorem ldg (f : Syl) : Statement (.ldg f) := of_syl .memory 0x01 _ f rfl (by decide) rfl rfl
theorem stg (f : Syl) : Statement (.stg f) := of_syl .memory 0x02 _ f rfl (by decide) rfl rfl
theorem lds (f : Syl) : Statement (.lds f) := of_syl .memory 0x03 _ f rfl (by decide) rfl rfl
theorem sts (f : Syl) : Statement (.sts f) := of_syl .memory 0x04 _ f rfl (by decide) rfl rfl
theorem ldc (f : Syl) : Statement (.ldc f) := of_syl .memory 0x05 _ f rfl (by decide) rfl rfl
theorem ldacq (f : Syl) : Statement (.ldacq f) := of_syl .memory 0x06 _ f rfl (by decide) rfl rfl
theorem strel (f : Syl) : Statement (.strel f) := of_syl .memory 0x07 _ f rfl (by decide) rfl rfl
theorem atom (f : Syl) : Statement (.atom f) := of_syl .memory 0x08 _ f rfl (by decide) rfl rfl
theorem atoms (f : Syl) : Statement (.atoms f) := of_syl .memory 0x09 _ f rfl (by decide) rfl rfl
theorem red (f : Syl) : Statement (.red f) := of_syl .memory 0x0A _ f rfl (by decide) rfl rfl
theorem fence (f : Syl) : Statement (.fence f) := of_syl .memory 0x0B _ f rfl (by decide) rfl rfl
theorem pref (f : Syl) : Statement (.pref f) := of_syl .memory 0x0C _ f rfl (by decide) rfl rfl
theorem halloc (f : Syl) : Statement (.halloc f) := of_syl .memory 0x0D _ f rfl (by decide) rfl rfl
theorem hfree (f : Syl) : Statement (.hfree f) := of_syl .memory 0x0E _ f rfl (by decide) rfl rfl
theorem hqry (f : Syl) : Statement (.hqry f) := of_syl .memory 0x0F _ f rfl (by decide) rfl rfl
theorem rfence (f : Syl) : Statement (.rfence f) := of_syl .memory 0x10 _ f rfl (by decide) rfl rfl
theorem qpost (f : Syl) : Statement (.qpost f) := of_syl .memory 0x11 _ f rfl (by decide) rfl rfl
theorem qtake (f : Syl) : Statement (.qtake f) := of_syl .memory 0x12 _ f rfl (by decide) rfl rfl
theorem tlsig (f : Syl) : Statement (.tlsig f) := of_syl .memory 0x13 _ f rfl (by decide) rfl rfl
theorem icinv (f : Syl) : Statement (.icinv f) := of_syl .memory 0x14 _ f rfl (by decide) rfl rfl
theorem ldl (f : Syl) : Statement (.ldl f) := of_syl .memory 0x15 _ f rfl (by decide) rfl rfl
theorem stl (f : Syl) : Statement (.stl f) := of_syl .memory 0x16 _ f rfl (by decide) rfl rfl
theorem enop (f : Syl) : Statement (.enop f) := of_syl .engine 0x00 _ f rfl (by decide) rfl rfl
theorem cset (f : Syl) : Statement (.cset f) := of_syl .engine 0x01 _ f rfl (by decide) rfl rfl
theorem cgo (f : Syl) : Statement (.cgo f) := of_syl .engine 0x02 _ f rfl (by decide) rfl rfl
theorem cgath (f : Syl) : Statement (.cgath f) := of_syl .engine 0x03 _ f rfl (by decide) rfl rfl
theorem cscat (f : Syl) : Statement (.cscat f) := of_syl .engine 0x04 _ f rfl (by decide) rfl rfl
theorem cqry (f : Syl) : Statement (.cqry f) := of_syl .engine 0x05 _ f rfl (by decide) rfl rfl
theorem mma (f : Syl) : Statement (.mma f) := of_syl .engine 0x10 _ f rfl (by decide) rfl rfl
theorem mmas (f : Syl) : Statement (.mmas f) := of_syl .engine 0x11 _ f rfl (by decide) rfl rfl
theorem macq (f : Syl) : Statement (.macq f) := of_syl .engine 0x12 _ f rfl (by decide) rfl rfl
theorem mrel (f : Syl) : Statement (.mrel f) := of_syl .engine 0x13 _ f rfl (by decide) rfl rfl
theorem mrd (f : Syl) : Statement (.mrd f) := of_syl .engine 0x14 _ f rfl (by decide) rfl rfl
theorem mwr (f : Syl) : Statement (.mwr f) := of_syl .engine 0x15 _ f rfl (by decide) rfl rfl
theorem mzero (f : Syl) : Statement (.mzero f) := of_syl .engine 0x16 _ f rfl (by decide) rfl rfl
theorem tset (f : Syl) : Statement (.tset f) := of_syl .engine 0x20 _ f rfl (by decide) rfl rfl
theorem trav (f : Syl) : Statement (.trav f) := of_syl .engine 0x21 _ f rfl (by decide) rfl rfl
theorem tret (f : Syl) : Statement (.tret f) := of_syl .engine 0x22 _ f rfl (by decide) rfl rfl
theorem dpush (f : Syl) : Statement (.dpush f) := of_syl .engine 0x23 _ f rfl (by decide) rfl rfl
theorem dcut (f : Syl) : Statement (.dcut f) := of_syl .engine 0x24 _ f rfl (by decide) rfl rfl
theorem ddeal (f : Syl) : Statement (.ddeal f) := of_syl .engine 0x25 _ f rfl (by decide) rfl rfl
theorem ddepth (f : Syl) : Statement (.ddepth f) := of_syl .engine 0x26 _ f rfl (by decide) rfl rfl
theorem claim (f : Syl) : Statement (.claim f) := of_syl .engine 0x30 _ f rfl (by decide) rfl rfl
theorem object (f : Syl) : Statement (.object f) := of_syl .engine 0x31 _ f rfl (by decide) rfl rfl
theorem clread (f : Syl) : Statement (.clread f) := of_syl .engine 0x32 _ f rfl (by decide) rfl rfl
theorem clpoll (f : Syl) : Statement (.clpoll f) := of_syl .engine 0x33 _ f rfl (by decide) rfl rfl
theorem clgrp (f : Syl) : Statement (.clgrp f) := of_syl .engine 0x34 _ f rfl (by decide) rfl rfl
theorem nop (f : Ctl) : Statement (.nop f) := of_ctl 0x00 _ f (by decide) rfl rfl
theorem prep (f : Ctl) : Statement (.prep f) := of_ctl 0x01 _ f (by decide) rfl rfl
theorem prepi (f : Ctl) : Statement (.prepi f) := of_ctl 0x02 _ f (by decide) rfl rfl
theorem bra (f : Ctl) : Statement (.bra f) := of_ctl 0x03 _ f (by decide) rfl rfl
theorem brd (f : Ctl) : Statement (.brd f) := of_ctl 0x04 _ f (by decide) rfl rfl
theorem jset (f : Ctl) : Statement (.jset f) := of_ctl 0x05 _ f (by decide) rfl rfl
theorem join (f : Ctl) : Statement (.join f) := of_ctl 0x06 _ f (by decide) rfl rfl
theorem call (f : Ctl) : Statement (.call f) := of_ctl 0x07 _ f (by decide) rfl rfl
theorem ret (f : Ctl) : Statement (.ret f) := of_ctl 0x08 _ f (by decide) rfl rfl
theorem exit (f : Ctl) : Statement (.exit f) := of_ctl 0x09 _ f (by decide) rfl rfl
theorem bar (f : Ctl) : Statement (.bar f) := of_ctl 0x0A _ f (by decide) rfl rfl
theorem bara (f : Ctl) : Statement (.bara f) := of_ctl 0x0B _ f (by decide) rfl rfl
theorem waitf (f : Ctl) : Statement (.waitf f) := of_ctl 0x0C _ f (by decide) rfl rfl
theorem yield (f : Ctl) : Statement (.yield f) := of_ctl 0x0D _ f (by decide) rfl rfl
theorem fork (f : Ctl) : Statement (.fork f) := of_ctl 0x0E _ f (by decide) rfl rfl
theorem sync (f : Ctl) : Statement (.sync f) := of_ctl 0x0F _ f (by decide) rfl rfl
theorem launch (f : Ctl) : Statement (.launch f) := of_ctl 0x10 _ f (by decide) rfl rfl
theorem tlwait (f : Ctl) : Statement (.tlwait f) := of_ctl 0x11 _ f (by decide) rfl rfl
theorem fmts (f : Ctl) : Statement (.fmts f) := of_ctl 0x12 _ f (by decide) rfl rfl
theorem grow (f : Ctl) : Statement (.grow f) := of_ctl 0x13 _ f (by decide) rfl rfl
theorem shrink (f : Ctl) : Statement (.shrink f) := of_ctl 0x14 _ f (by decide) rfl rfl
theorem enter (f : Ctl) : Statement (.enter f) := of_ctl 0x15 _ f (by decide) rfl rfl
theorem leave (f : Ctl) : Statement (.leave f) := of_ctl 0x16 _ f (by decide) rfl rfl
theorem trap (f : Ctl) : Statement (.trap f) := of_ctl 0x17 _ f (by decide) rfl rfl
theorem rft (f : Ctl) : Statement (.rft f) := of_ctl 0x18 _ f (by decide) rfl rfl
theorem ovtld (f : Ctl) : Statement (.ovtld f) := of_ctl 0x19 _ f (by decide) rfl rfl
theorem srd (f : Ctl) : Statement (.srd f) := of_ctl 0x1A _ f (by decide) rfl rfl
theorem swr (f : Ctl) : Statement (.swr f) := of_ctl 0x1B _ f (by decide) rfl rfl
theorem sleep (f : Ctl) : Statement (.sleep f) := of_ctl 0x1C _ f (by decide) rfl rfl
theorem bkpt (f : Ctl) : Statement (.bkpt f) := of_ctl 0x1D _ f (by decide) rfl rfl
theorem kend (f : Ctl) : Statement (.kend f) := of_ctl 0x1E _ f (by decide) rfl rfl
theorem resultDelivery (op : Nat) : Statement (.resultDelivery op) := of_event _ rfl
theorem fenceComplete (op : Nat) : Statement (.fenceComplete op) := of_event _ rfl
theorem pageWalk (op : Nat) (lanes : Lanes) : Statement (.pageWalk op lanes) := of_event _ rfl
theorem homeAccess (op : Nat) (lanes : Lanes) (answers : List Nat) (writeBack : List Nat) : Statement (.homeAccess op lanes answers writeBack) := of_event _ rfl
theorem combine (line : Nat) : Statement (.combine line) := of_event _ rfl
theorem gatheredRedApply (op : Nat) (lanes : Lanes) : Statement (.gatheredRedApply op lanes) := of_event _ rfl
theorem uCopyEviction (die line : Nat) : Statement (.uCopyEviction die line) := of_event _ rfl
theorem deferredFaultTrap (warp : Nat) : Statement (.deferredFaultTrap warp) := of_event _ rfl
theorem dataWatchMatch (op : Nat) : Statement (.dataWatchMatch op) := of_event _ rfl
theorem starvationBound (warp : Nat) : Statement (.starvationBound warp) := of_event _ rfl
theorem groupRotation (warp : Nat) : Statement (.groupRotation warp) := of_event _ rfl
theorem timelineCounterUpdate (pa : Nat) : Statement (.timelineCounterUpdate pa) := of_event _ rfl
theorem tlwaitDeadline (warp group : Nat) : Statement (.tlwaitDeadline warp group) := of_event _ rfl
theorem sleepWake (warp group : Nat) : Statement (.sleepWake warp group) := of_event _ rfl
theorem copyQueueAccept (op : Nat) : Statement (.copyQueueAccept op) := of_event _ rfl
theorem copyChannelStart (cluster : Nat) : Statement (.copyChannelStart cluster) := of_event _ rfl
theorem copyComplete (op : Nat) (answers : List Nat) : Statement (.copyComplete op answers) := of_event _ rfl
theorem matrixOpComplete (op : Nat) : Statement (.matrixOpComplete op) := of_event _ rfl
theorem tokenRelease (sub tile : Nat) : Statement (.tokenRelease sub tile) := of_event _ rfl
theorem tsetTableLoaded (op : Nat) : Statement (.tsetTableLoaded op) := of_event _ rfl
theorem traversalPop (walk lane : Nat) : Statement (.traversalPop walk lane) := of_event _ rfl
theorem deckSpill (walk lane : Nat) : Statement (.deckSpill walk lane) := of_event _ rfl
theorem routineCall (walk : Nat) : Statement (.routineCall walk) := of_event _ rfl
theorem walkComplete (walk : Nat) : Statement (.walkComplete walk) := of_event _ rfl
theorem handleSpaceReturn (old : Nat) : Statement (.handleSpaceReturn old) := of_event _ rfl
theorem dealerDealTeam (die : Nat) : Statement (.dealerDealTeam die) := of_event _ rfl
theorem dealerSteal (die : Nat) : Statement (.dealerSteal die) := of_event _ rfl
theorem kittySteal (cluster : Nat) : Statement (.kittySteal cluster) := of_event _ rfl
theorem taskStart (cluster : Nat) : Statement (.taskStart cluster) := of_event _ rfl
theorem warpSlotRelease (warp : Nat) : Statement (.warpSlotRelease warp) := of_event _ rfl
theorem teamComplete (team : Nat) : Statement (.teamComplete team) := of_event _ rfl
theorem stageSlotRestart (team slot : Nat) : Statement (.stageSlotRestart team slot) := of_event _ rfl
theorem calendarTurn : Statement .calendarTurn := of_event _ rfl
theorem bucketRefill : Statement .bucketRefill := of_event _ rfl
theorem permitRefill (cluster : Nat) : Statement (.permitRefill cluster) := of_event _ rfl
theorem droopStretch (cluster : Nat) : Statement (.droopStretch cluster) := of_event _ rfl
theorem fllStepDown (cluster : Nat) : Statement (.fllStepDown cluster) := of_event _ rfl
theorem frequencyChange (cluster code : Nat) : Statement (.frequencyChange cluster code) := of_event _ rfl
theorem retentionEntry (cluster : Nat) : Statement (.retentionEntry cluster) := of_event _ rfl
theorem retentionExit (cluster : Nat) (parityOk testOk : Bool) : Statement (.retentionExit cluster parityOk testOk) := of_event _ rfl
theorem uncorrectedError (kind place : Nat) (lanes : Lanes) : Statement (.uncorrectedError kind place lanes) := of_event _ rfl
theorem selfTest (kind place : Nat) (pass : Bool) : Statement (.selfTest kind place pass) := of_event _ rfl
theorem claimArrival (msg : Nat) (remote : Option Remote) : Statement (.claimArrival msg remote) := of_event _ rfl
theorem inboxDelivery (msg : Nat) (remote : Option Remote) : Statement (.inboxDelivery msg remote) := of_event _ rfl
theorem objectionArrival (msg : Nat) (remote : Option Remote) (answer : Nat) : Statement (.objectionArrival msg remote answer) := of_event _ rfl
theorem claimWindowEnd (proposal : Nat) : Statement (.claimWindowEnd proposal) := of_event _ rfl
theorem claimOutcome (msg answer : Nat) : Statement (.claimOutcome msg answer) := of_event _ rfl
theorem claimPlaneUnreachable (device : Nat) : Statement (.claimPlaneUnreachable device) := of_event _ rfl
theorem postedWriteSend (write : Nat) : Statement (.postedWriteSend write) := of_event _ rfl
theorem postedWriteReport (write : Nat) (refused : Bool) : Statement (.postedWriteReport write refused) := of_event _ rfl
theorem postedWriteLost (write : Nat) : Statement (.postedWriteLost write) := of_event _ rfl
theorem inboundPostedWrite (tag pa : Nat) (bytes : List (Option Byte)) : Statement (.inboundPostedWrite tag pa bytes) := of_event _ rfl
theorem inboundRead (tag pa size : Nat) : Statement (.inboundRead tag pa size) := of_event _ rfl
theorem hostWrite (pa : Nat) (bytes : List Byte) : Statement (.hostWrite pa bytes) := of_event _ rfl
theorem hostRead (tag pa size : Nat) : Statement (.hostRead tag pa size) := of_event _ rfl
theorem doorbellWrite (value : Word) : Statement (.doorbellWrite value) := of_event _ rfl
theorem recoveryGo : Statement .recoveryGo := of_event _ rfl
theorem boot : Statement .boot := of_event _ rfl
theorem tlbinvWrite (warp : Nat) (value : DWord) : Statement (.tlbinvWrite warp value) := of_event _ rfl
theorem pctlSave (warp : Nat) (value : DWord) : Statement (.pctlSave warp value) := of_event _ rfl
theorem preemptSaveComplete (team : Nat) : Statement (.preemptSaveComplete team) := of_event _ rfl
theorem pctlRestore (warp : Nat) (value : DWord) : Statement (.pctlRestore warp value) := of_event _ rfl
theorem hvcommitGo : Statement .hvcommitGo := of_event _ rfl
theorem flushpaWrite (value : DWord) : Statement (.flushpaWrite value) := of_event _ rfl
theorem checkpointSave : Statement .checkpointSave := of_event _ rfl
theorem checkpointRestore : Statement .checkpointRestore := of_event _ rfl
theorem checkpointComplete (errors : Nat) : Statement (.checkpointComplete errors) := of_event _ rfl
theorem attestExtend (value : DWord) : Statement (.attestExtend value) := of_event _ rfl
theorem attestQuote (value : DWord) : Statement (.attestQuote value) := of_event _ rfl
theorem sketchEventWrite (cluster which : Nat) (value : DWord) : Statement (.sketchEventWrite cluster which value) := of_event _ rfl
theorem sketchDump (warp : Nat) (value : DWord) : Statement (.sketchDump warp value) := of_event _ rfl
theorem histogramClear (sub : Nat) : Statement (.histogramClear sub) := of_event _ rfl
theorem claimGroupDestroy (part group : Nat) : Statement (.claimGroupDestroy part group) := of_event _ rfl
theorem pmodeWrite (value : DWord) : Statement (.pmodeWrite value) := of_event _ rfl
theorem sessionRemap (warp : Nat) (value : DWord) : Statement (.sessionRemap warp value) := of_event _ rfl
theorem planeReachable (device : Nat) : Statement (.planeReachable device) := of_event _ rfl
theorem inboundAtomic (tag pa op size data cmp : Nat) : Statement (.inboundAtomic tag pa op size data cmp) := of_event _ rfl

end Sys2Proof.Laws.Encoding
end

