-- ==== Sys2Proof/Laws/State.lean ====
section
/-! SUPPORT. Each field of the state under each of its plain updates: one lemma for an update, one conjunct for a field. -/

namespace Sys2Proof.Machine

/-- A warp: its table takes the new entry, and the rest of the state stays. -/
@[simp] theorem State.setWarp_fields (s : State) (g : Nat) (w : Warp) :
    (s.setWarp g w).warps = tput s.warps g w ∧ (s.setWarp g w).mem = s.mem ∧ (s.setWarp g w).l2 = s.l2 ∧
    (s.setWarp g w).dir = s.dir ∧ (s.setWarp g w).ucopy = s.ucopy ∧ (s.setWarp g w).dies = s.dies ∧
    (s.setWarp g w).clusters = s.clusters ∧ (s.setWarp g w).subs = s.subs ∧ (s.setWarp g w).teams = s.teams ∧
    (s.setWarp g w).launches = s.launches ∧ (s.setWarp g w).parts = s.parts ∧ (s.setWarp g w).ctxs = s.ctxs ∧
    (s.setWarp g w).windows = s.windows ∧ (s.setWarp g w).calendar = s.calendar ∧ (s.setWarp g w).staged = s.staged ∧
    (s.setWarp g w).lnidNext = s.lnidNext ∧ (s.setWarp g w).suspended = s.suspended ∧ (s.setWarp g w).roots = s.roots ∧
    (s.setWarp g w).orphans = s.orphans ∧ (s.setWarp g w).dealt = s.dealt ∧ (s.setWarp g w).mops = s.mops ∧
    (s.setWarp g w).replies = s.replies ∧ (s.setWarp g w).copies = s.copies ∧ (s.setWarp g w).mats = s.mats ∧
    (s.setWarp g w).walks = s.walks ∧ (s.setWarp g w).tsets = s.tsets ∧ (s.setWarp g w).deals = s.deals ∧
    (s.setWarp g w).cuts = s.cuts ∧ (s.setWarp g w).pushes = s.pushes ∧ (s.setWarp g w).oldHandles = s.oldHandles ∧
    (s.setWarp g w).posted = s.posted ∧ (s.setWarp g w).published = s.published ∧ (s.setWarp g w).outbox = s.outbox ∧
    (s.setWarp g w).requests = s.requests ∧ (s.setWarp g w).cgroups = s.cgroups ∧ (s.setWarp g w).proposals = s.proposals ∧
    (s.setWarp g w).committed = s.committed ∧ (s.setWarp g w).keySlots = s.keySlots ∧ (s.setWarp g w).taken = s.taken ∧
    (s.setWarp g w).cmsgs = s.cmsgs ∧ (s.setWarp g w).carried = s.carried ∧ (s.setWarp g w).inboxes = s.inboxes ∧
    (s.setWarp g w).pollers = s.pollers ∧ (s.setWarp g w).unreachable = s.unreachable ∧ (s.setWarp g w).preempts = s.preempts ∧
    (s.setWarp g w).sreg = s.sreg ∧ (s.setWarp g w).bad = s.bad ∧ (s.setWarp g w).tests = s.tests ∧ (s.setWarp g w).elog = s.elog ∧
    (s.setWarp g w).meas = s.meas ∧ (s.setWarp g w).bstate = s.bstate ∧ (s.setWarp g w).berr = s.berr ∧
    (s.setWarp g w).doorbell = s.doorbell ∧ (s.setWarp g w).bar2 = s.bar2 ∧ (s.setWarp g w).staging = s.staging ∧
    (s.setWarp g w).flashA = s.flashA ∧ (s.setWarp g w).flashB = s.flashB ∧ (s.setWarp g w).fuseKey = s.fuseKey ∧
    (s.setWarp g w).fuseSvn = s.fuseSvn ∧ (s.setWarp g w).ckpt = s.ckpt ∧ (s.setWarp g w).interrupts = s.interrupts ∧
    (s.setWarp g w).cur = s.cur ∧ (s.setWarp g w).issue = s.issue ∧ (s.setWarp g w).agenda = s.agenda ∧
    (s.setWarp g w).owed = s.owed ∧ (s.setWarp g w).free = s.free ∧ (s.setWarp g w).nextId = s.nextId ∧
    (s.setWarp g w).turn = s.turn ∧ (s.setWarp g w).now = s.now := by
  and_intros <;> rfl

/-- A cluster: its table takes the new entry, and the rest of the state stays. -/
@[simp] theorem State.setCluster_fields (s : State) (c : Nat) (x : Cluster) :
    (s.setCluster c x).clusters = tset Cluster.reset s.clusters c x ∧ (s.setCluster c x).mem = s.mem ∧
    (s.setCluster c x).l2 = s.l2 ∧ (s.setCluster c x).dir = s.dir ∧ (s.setCluster c x).ucopy = s.ucopy ∧
    (s.setCluster c x).dies = s.dies ∧ (s.setCluster c x).subs = s.subs ∧ (s.setCluster c x).warps = s.warps ∧
    (s.setCluster c x).teams = s.teams ∧ (s.setCluster c x).launches = s.launches ∧ (s.setCluster c x).parts = s.parts ∧
    (s.setCluster c x).ctxs = s.ctxs ∧ (s.setCluster c x).windows = s.windows ∧ (s.setCluster c x).calendar = s.calendar ∧
    (s.setCluster c x).staged = s.staged ∧ (s.setCluster c x).lnidNext = s.lnidNext ∧ (s.setCluster c x).suspended = s.suspended ∧
    (s.setCluster c x).roots = s.roots ∧ (s.setCluster c x).orphans = s.orphans ∧ (s.setCluster c x).dealt = s.dealt ∧
    (s.setCluster c x).mops = s.mops ∧ (s.setCluster c x).replies = s.replies ∧ (s.setCluster c x).copies = s.copies ∧
    (s.setCluster c x).mats = s.mats ∧ (s.setCluster c x).walks = s.walks ∧ (s.setCluster c x).tsets = s.tsets ∧
    (s.setCluster c x).deals = s.deals ∧ (s.setCluster c x).cuts = s.cuts ∧ (s.setCluster c x).pushes = s.pushes ∧
    (s.setCluster c x).oldHandles = s.oldHandles ∧ (s.setCluster c x).posted = s.posted ∧
    (s.setCluster c x).published = s.published ∧ (s.setCluster c x).outbox = s.outbox ∧ (s.setCluster c x).requests = s.requests ∧
    (s.setCluster c x).cgroups = s.cgroups ∧ (s.setCluster c x).proposals = s.proposals ∧
    (s.setCluster c x).committed = s.committed ∧ (s.setCluster c x).keySlots = s.keySlots ∧ (s.setCluster c x).taken = s.taken ∧
    (s.setCluster c x).cmsgs = s.cmsgs ∧ (s.setCluster c x).carried = s.carried ∧ (s.setCluster c x).inboxes = s.inboxes ∧
    (s.setCluster c x).pollers = s.pollers ∧ (s.setCluster c x).unreachable = s.unreachable ∧
    (s.setCluster c x).preempts = s.preempts ∧ (s.setCluster c x).sreg = s.sreg ∧ (s.setCluster c x).bad = s.bad ∧
    (s.setCluster c x).tests = s.tests ∧ (s.setCluster c x).elog = s.elog ∧ (s.setCluster c x).meas = s.meas ∧
    (s.setCluster c x).bstate = s.bstate ∧ (s.setCluster c x).berr = s.berr ∧ (s.setCluster c x).doorbell = s.doorbell ∧
    (s.setCluster c x).bar2 = s.bar2 ∧ (s.setCluster c x).staging = s.staging ∧ (s.setCluster c x).flashA = s.flashA ∧
    (s.setCluster c x).flashB = s.flashB ∧ (s.setCluster c x).fuseKey = s.fuseKey ∧ (s.setCluster c x).fuseSvn = s.fuseSvn ∧
    (s.setCluster c x).ckpt = s.ckpt ∧ (s.setCluster c x).interrupts = s.interrupts ∧ (s.setCluster c x).cur = s.cur ∧
    (s.setCluster c x).issue = s.issue ∧ (s.setCluster c x).agenda = s.agenda ∧ (s.setCluster c x).owed = s.owed ∧
    (s.setCluster c x).free = s.free ∧ (s.setCluster c x).nextId = s.nextId ∧ (s.setCluster c x).turn = s.turn ∧
    (s.setCluster c x).now = s.now := by
  and_intros <;> rfl

/-- A sub-core: its table takes the new entry, and the rest of the state stays. -/
@[simp] theorem State.setSub_fields (s : State) (n : Nat) (x : SubCore) :
    (s.setSub n x).subs = tset SubCore.reset s.subs n x ∧ (s.setSub n x).mem = s.mem ∧ (s.setSub n x).l2 = s.l2 ∧
    (s.setSub n x).dir = s.dir ∧ (s.setSub n x).ucopy = s.ucopy ∧ (s.setSub n x).dies = s.dies ∧
    (s.setSub n x).clusters = s.clusters ∧ (s.setSub n x).warps = s.warps ∧ (s.setSub n x).teams = s.teams ∧
    (s.setSub n x).launches = s.launches ∧ (s.setSub n x).parts = s.parts ∧ (s.setSub n x).ctxs = s.ctxs ∧
    (s.setSub n x).windows = s.windows ∧ (s.setSub n x).calendar = s.calendar ∧ (s.setSub n x).staged = s.staged ∧
    (s.setSub n x).lnidNext = s.lnidNext ∧ (s.setSub n x).suspended = s.suspended ∧ (s.setSub n x).roots = s.roots ∧
    (s.setSub n x).orphans = s.orphans ∧ (s.setSub n x).dealt = s.dealt ∧ (s.setSub n x).mops = s.mops ∧
    (s.setSub n x).replies = s.replies ∧ (s.setSub n x).copies = s.copies ∧ (s.setSub n x).mats = s.mats ∧
    (s.setSub n x).walks = s.walks ∧ (s.setSub n x).tsets = s.tsets ∧ (s.setSub n x).deals = s.deals ∧
    (s.setSub n x).cuts = s.cuts ∧ (s.setSub n x).pushes = s.pushes ∧ (s.setSub n x).oldHandles = s.oldHandles ∧
    (s.setSub n x).posted = s.posted ∧ (s.setSub n x).published = s.published ∧ (s.setSub n x).outbox = s.outbox ∧
    (s.setSub n x).requests = s.requests ∧ (s.setSub n x).cgroups = s.cgroups ∧ (s.setSub n x).proposals = s.proposals ∧
    (s.setSub n x).committed = s.committed ∧ (s.setSub n x).keySlots = s.keySlots ∧ (s.setSub n x).taken = s.taken ∧
    (s.setSub n x).cmsgs = s.cmsgs ∧ (s.setSub n x).carried = s.carried ∧ (s.setSub n x).inboxes = s.inboxes ∧
    (s.setSub n x).pollers = s.pollers ∧ (s.setSub n x).unreachable = s.unreachable ∧ (s.setSub n x).preempts = s.preempts ∧
    (s.setSub n x).sreg = s.sreg ∧ (s.setSub n x).bad = s.bad ∧ (s.setSub n x).tests = s.tests ∧ (s.setSub n x).elog = s.elog ∧
    (s.setSub n x).meas = s.meas ∧ (s.setSub n x).bstate = s.bstate ∧ (s.setSub n x).berr = s.berr ∧
    (s.setSub n x).doorbell = s.doorbell ∧ (s.setSub n x).bar2 = s.bar2 ∧ (s.setSub n x).staging = s.staging ∧
    (s.setSub n x).flashA = s.flashA ∧ (s.setSub n x).flashB = s.flashB ∧ (s.setSub n x).fuseKey = s.fuseKey ∧
    (s.setSub n x).fuseSvn = s.fuseSvn ∧ (s.setSub n x).ckpt = s.ckpt ∧ (s.setSub n x).interrupts = s.interrupts ∧
    (s.setSub n x).cur = s.cur ∧ (s.setSub n x).issue = s.issue ∧ (s.setSub n x).agenda = s.agenda ∧ (s.setSub n x).owed = s.owed ∧
    (s.setSub n x).free = s.free ∧ (s.setSub n x).nextId = s.nextId ∧ (s.setSub n x).turn = s.turn ∧
    (s.setSub n x).now = s.now := by
  and_intros <;> rfl

/-- A die: its table takes the new entry, and the rest of the state stays. -/
@[simp] theorem State.setDie_fields (s : State) (d : Nat) (x : Die) :
    (s.setDie d x).dies = tset Die.reset s.dies d x ∧ (s.setDie d x).mem = s.mem ∧ (s.setDie d x).l2 = s.l2 ∧
    (s.setDie d x).dir = s.dir ∧ (s.setDie d x).ucopy = s.ucopy ∧ (s.setDie d x).clusters = s.clusters ∧
    (s.setDie d x).subs = s.subs ∧ (s.setDie d x).warps = s.warps ∧ (s.setDie d x).teams = s.teams ∧
    (s.setDie d x).launches = s.launches ∧ (s.setDie d x).parts = s.parts ∧ (s.setDie d x).ctxs = s.ctxs ∧
    (s.setDie d x).windows = s.windows ∧ (s.setDie d x).calendar = s.calendar ∧ (s.setDie d x).staged = s.staged ∧
    (s.setDie d x).lnidNext = s.lnidNext ∧ (s.setDie d x).suspended = s.suspended ∧ (s.setDie d x).roots = s.roots ∧
    (s.setDie d x).orphans = s.orphans ∧ (s.setDie d x).dealt = s.dealt ∧ (s.setDie d x).mops = s.mops ∧
    (s.setDie d x).replies = s.replies ∧ (s.setDie d x).copies = s.copies ∧ (s.setDie d x).mats = s.mats ∧
    (s.setDie d x).walks = s.walks ∧ (s.setDie d x).tsets = s.tsets ∧ (s.setDie d x).deals = s.deals ∧
    (s.setDie d x).cuts = s.cuts ∧ (s.setDie d x).pushes = s.pushes ∧ (s.setDie d x).oldHandles = s.oldHandles ∧
    (s.setDie d x).posted = s.posted ∧ (s.setDie d x).published = s.published ∧ (s.setDie d x).outbox = s.outbox ∧
    (s.setDie d x).requests = s.requests ∧ (s.setDie d x).cgroups = s.cgroups ∧ (s.setDie d x).proposals = s.proposals ∧
    (s.setDie d x).committed = s.committed ∧ (s.setDie d x).keySlots = s.keySlots ∧ (s.setDie d x).taken = s.taken ∧
    (s.setDie d x).cmsgs = s.cmsgs ∧ (s.setDie d x).carried = s.carried ∧ (s.setDie d x).inboxes = s.inboxes ∧
    (s.setDie d x).pollers = s.pollers ∧ (s.setDie d x).unreachable = s.unreachable ∧ (s.setDie d x).preempts = s.preempts ∧
    (s.setDie d x).sreg = s.sreg ∧ (s.setDie d x).bad = s.bad ∧ (s.setDie d x).tests = s.tests ∧ (s.setDie d x).elog = s.elog ∧
    (s.setDie d x).meas = s.meas ∧ (s.setDie d x).bstate = s.bstate ∧ (s.setDie d x).berr = s.berr ∧
    (s.setDie d x).doorbell = s.doorbell ∧ (s.setDie d x).bar2 = s.bar2 ∧ (s.setDie d x).staging = s.staging ∧
    (s.setDie d x).flashA = s.flashA ∧ (s.setDie d x).flashB = s.flashB ∧ (s.setDie d x).fuseKey = s.fuseKey ∧
    (s.setDie d x).fuseSvn = s.fuseSvn ∧ (s.setDie d x).ckpt = s.ckpt ∧ (s.setDie d x).interrupts = s.interrupts ∧
    (s.setDie d x).cur = s.cur ∧ (s.setDie d x).issue = s.issue ∧ (s.setDie d x).agenda = s.agenda ∧ (s.setDie d x).owed = s.owed ∧
    (s.setDie d x).free = s.free ∧ (s.setDie d x).nextId = s.nextId ∧ (s.setDie d x).turn = s.turn ∧
    (s.setDie d x).now = s.now := by
  and_intros <;> rfl

/-- A partition: its table takes the new entry, and the rest of the state stays. -/
@[simp] theorem State.setPart_fields (s : State) (p : Nat) (x : Partition) :
    (s.setPart p x).parts = tset Partition.absent s.parts p x ∧ (s.setPart p x).mem = s.mem ∧ (s.setPart p x).l2 = s.l2 ∧
    (s.setPart p x).dir = s.dir ∧ (s.setPart p x).ucopy = s.ucopy ∧ (s.setPart p x).dies = s.dies ∧
    (s.setPart p x).clusters = s.clusters ∧ (s.setPart p x).subs = s.subs ∧ (s.setPart p x).warps = s.warps ∧
    (s.setPart p x).teams = s.teams ∧ (s.setPart p x).launches = s.launches ∧ (s.setPart p x).ctxs = s.ctxs ∧
    (s.setPart p x).windows = s.windows ∧ (s.setPart p x).calendar = s.calendar ∧ (s.setPart p x).staged = s.staged ∧
    (s.setPart p x).lnidNext = s.lnidNext ∧ (s.setPart p x).suspended = s.suspended ∧ (s.setPart p x).roots = s.roots ∧
    (s.setPart p x).orphans = s.orphans ∧ (s.setPart p x).dealt = s.dealt ∧ (s.setPart p x).mops = s.mops ∧
    (s.setPart p x).replies = s.replies ∧ (s.setPart p x).copies = s.copies ∧ (s.setPart p x).mats = s.mats ∧
    (s.setPart p x).walks = s.walks ∧ (s.setPart p x).tsets = s.tsets ∧ (s.setPart p x).deals = s.deals ∧
    (s.setPart p x).cuts = s.cuts ∧ (s.setPart p x).pushes = s.pushes ∧ (s.setPart p x).oldHandles = s.oldHandles ∧
    (s.setPart p x).posted = s.posted ∧ (s.setPart p x).published = s.published ∧ (s.setPart p x).outbox = s.outbox ∧
    (s.setPart p x).requests = s.requests ∧ (s.setPart p x).cgroups = s.cgroups ∧ (s.setPart p x).proposals = s.proposals ∧
    (s.setPart p x).committed = s.committed ∧ (s.setPart p x).keySlots = s.keySlots ∧ (s.setPart p x).taken = s.taken ∧
    (s.setPart p x).cmsgs = s.cmsgs ∧ (s.setPart p x).carried = s.carried ∧ (s.setPart p x).inboxes = s.inboxes ∧
    (s.setPart p x).pollers = s.pollers ∧ (s.setPart p x).unreachable = s.unreachable ∧ (s.setPart p x).preempts = s.preempts ∧
    (s.setPart p x).sreg = s.sreg ∧ (s.setPart p x).bad = s.bad ∧ (s.setPart p x).tests = s.tests ∧ (s.setPart p x).elog = s.elog ∧
    (s.setPart p x).meas = s.meas ∧ (s.setPart p x).bstate = s.bstate ∧ (s.setPart p x).berr = s.berr ∧
    (s.setPart p x).doorbell = s.doorbell ∧ (s.setPart p x).bar2 = s.bar2 ∧ (s.setPart p x).staging = s.staging ∧
    (s.setPart p x).flashA = s.flashA ∧ (s.setPart p x).flashB = s.flashB ∧ (s.setPart p x).fuseKey = s.fuseKey ∧
    (s.setPart p x).fuseSvn = s.fuseSvn ∧ (s.setPart p x).ckpt = s.ckpt ∧ (s.setPart p x).interrupts = s.interrupts ∧
    (s.setPart p x).cur = s.cur ∧ (s.setPart p x).issue = s.issue ∧ (s.setPart p x).agenda = s.agenda ∧
    (s.setPart p x).owed = s.owed ∧ (s.setPart p x).free = s.free ∧ (s.setPart p x).nextId = s.nextId ∧
    (s.setPart p x).turn = s.turn ∧ (s.setPart p x).now = s.now := by
  and_intros <;> rfl

/-- A special register: its table takes the new entry, and the rest of the state stays. -/
@[simp] theorem State.setSreg_fields (s : State) (key : Nat) (d v : DWord) :
    (s.setSreg key d v).sreg = tset d s.sreg key v ∧ (s.setSreg key d v).mem = s.mem ∧ (s.setSreg key d v).l2 = s.l2 ∧
    (s.setSreg key d v).dir = s.dir ∧ (s.setSreg key d v).ucopy = s.ucopy ∧ (s.setSreg key d v).dies = s.dies ∧
    (s.setSreg key d v).clusters = s.clusters ∧ (s.setSreg key d v).subs = s.subs ∧ (s.setSreg key d v).warps = s.warps ∧
    (s.setSreg key d v).teams = s.teams ∧ (s.setSreg key d v).launches = s.launches ∧ (s.setSreg key d v).parts = s.parts ∧
    (s.setSreg key d v).ctxs = s.ctxs ∧ (s.setSreg key d v).windows = s.windows ∧ (s.setSreg key d v).calendar = s.calendar ∧
    (s.setSreg key d v).staged = s.staged ∧ (s.setSreg key d v).lnidNext = s.lnidNext ∧
    (s.setSreg key d v).suspended = s.suspended ∧ (s.setSreg key d v).roots = s.roots ∧ (s.setSreg key d v).orphans = s.orphans ∧
    (s.setSreg key d v).dealt = s.dealt ∧ (s.setSreg key d v).mops = s.mops ∧ (s.setSreg key d v).replies = s.replies ∧
    (s.setSreg key d v).copies = s.copies ∧ (s.setSreg key d v).mats = s.mats ∧ (s.setSreg key d v).walks = s.walks ∧
    (s.setSreg key d v).tsets = s.tsets ∧ (s.setSreg key d v).deals = s.deals ∧ (s.setSreg key d v).cuts = s.cuts ∧
    (s.setSreg key d v).pushes = s.pushes ∧ (s.setSreg key d v).oldHandles = s.oldHandles ∧ (s.setSreg key d v).posted = s.posted ∧
    (s.setSreg key d v).published = s.published ∧ (s.setSreg key d v).outbox = s.outbox ∧
    (s.setSreg key d v).requests = s.requests ∧ (s.setSreg key d v).cgroups = s.cgroups ∧
    (s.setSreg key d v).proposals = s.proposals ∧ (s.setSreg key d v).committed = s.committed ∧
    (s.setSreg key d v).keySlots = s.keySlots ∧ (s.setSreg key d v).taken = s.taken ∧ (s.setSreg key d v).cmsgs = s.cmsgs ∧
    (s.setSreg key d v).carried = s.carried ∧ (s.setSreg key d v).inboxes = s.inboxes ∧ (s.setSreg key d v).pollers = s.pollers ∧
    (s.setSreg key d v).unreachable = s.unreachable ∧ (s.setSreg key d v).preempts = s.preempts ∧ (s.setSreg key d v).bad = s.bad ∧
    (s.setSreg key d v).tests = s.tests ∧ (s.setSreg key d v).elog = s.elog ∧ (s.setSreg key d v).meas = s.meas ∧
    (s.setSreg key d v).bstate = s.bstate ∧ (s.setSreg key d v).berr = s.berr ∧ (s.setSreg key d v).doorbell = s.doorbell ∧
    (s.setSreg key d v).bar2 = s.bar2 ∧ (s.setSreg key d v).staging = s.staging ∧ (s.setSreg key d v).flashA = s.flashA ∧
    (s.setSreg key d v).flashB = s.flashB ∧ (s.setSreg key d v).fuseKey = s.fuseKey ∧ (s.setSreg key d v).fuseSvn = s.fuseSvn ∧
    (s.setSreg key d v).ckpt = s.ckpt ∧ (s.setSreg key d v).interrupts = s.interrupts ∧ (s.setSreg key d v).cur = s.cur ∧
    (s.setSreg key d v).issue = s.issue ∧ (s.setSreg key d v).agenda = s.agenda ∧ (s.setSreg key d v).owed = s.owed ∧
    (s.setSreg key d v).free = s.free ∧ (s.setSreg key d v).nextId = s.nextId ∧ (s.setSreg key d v).turn = s.turn ∧
    (s.setSreg key d v).now = s.now := by
  and_intros <;> rfl

/-- A directory entry: its table takes the new entry, and the rest of the state stays. -/
@[simp] theorem State.setDir_fields (s : State) (line : Nat) (e : DirEntry) :
    (s.setDir line e).dir = tset DirEntry.none s.dir line e ∧ (s.setDir line e).mem = s.mem ∧ (s.setDir line e).l2 = s.l2 ∧
    (s.setDir line e).ucopy = s.ucopy ∧ (s.setDir line e).dies = s.dies ∧ (s.setDir line e).clusters = s.clusters ∧
    (s.setDir line e).subs = s.subs ∧ (s.setDir line e).warps = s.warps ∧ (s.setDir line e).teams = s.teams ∧
    (s.setDir line e).launches = s.launches ∧ (s.setDir line e).parts = s.parts ∧ (s.setDir line e).ctxs = s.ctxs ∧
    (s.setDir line e).windows = s.windows ∧ (s.setDir line e).calendar = s.calendar ∧ (s.setDir line e).staged = s.staged ∧
    (s.setDir line e).lnidNext = s.lnidNext ∧ (s.setDir line e).suspended = s.suspended ∧ (s.setDir line e).roots = s.roots ∧
    (s.setDir line e).orphans = s.orphans ∧ (s.setDir line e).dealt = s.dealt ∧ (s.setDir line e).mops = s.mops ∧
    (s.setDir line e).replies = s.replies ∧ (s.setDir line e).copies = s.copies ∧ (s.setDir line e).mats = s.mats ∧
    (s.setDir line e).walks = s.walks ∧ (s.setDir line e).tsets = s.tsets ∧ (s.setDir line e).deals = s.deals ∧
    (s.setDir line e).cuts = s.cuts ∧ (s.setDir line e).pushes = s.pushes ∧ (s.setDir line e).oldHandles = s.oldHandles ∧
    (s.setDir line e).posted = s.posted ∧ (s.setDir line e).published = s.published ∧ (s.setDir line e).outbox = s.outbox ∧
    (s.setDir line e).requests = s.requests ∧ (s.setDir line e).cgroups = s.cgroups ∧ (s.setDir line e).proposals = s.proposals ∧
    (s.setDir line e).committed = s.committed ∧ (s.setDir line e).keySlots = s.keySlots ∧ (s.setDir line e).taken = s.taken ∧
    (s.setDir line e).cmsgs = s.cmsgs ∧ (s.setDir line e).carried = s.carried ∧ (s.setDir line e).inboxes = s.inboxes ∧
    (s.setDir line e).pollers = s.pollers ∧ (s.setDir line e).unreachable = s.unreachable ∧
    (s.setDir line e).preempts = s.preempts ∧ (s.setDir line e).sreg = s.sreg ∧ (s.setDir line e).bad = s.bad ∧
    (s.setDir line e).tests = s.tests ∧ (s.setDir line e).elog = s.elog ∧ (s.setDir line e).meas = s.meas ∧
    (s.setDir line e).bstate = s.bstate ∧ (s.setDir line e).berr = s.berr ∧ (s.setDir line e).doorbell = s.doorbell ∧
    (s.setDir line e).bar2 = s.bar2 ∧ (s.setDir line e).staging = s.staging ∧ (s.setDir line e).flashA = s.flashA ∧
    (s.setDir line e).flashB = s.flashB ∧ (s.setDir line e).fuseKey = s.fuseKey ∧ (s.setDir line e).fuseSvn = s.fuseSvn ∧
    (s.setDir line e).ckpt = s.ckpt ∧ (s.setDir line e).interrupts = s.interrupts ∧ (s.setDir line e).cur = s.cur ∧
    (s.setDir line e).issue = s.issue ∧ (s.setDir line e).agenda = s.agenda ∧ (s.setDir line e).owed = s.owed ∧
    (s.setDir line e).free = s.free ∧ (s.setDir line e).nextId = s.nextId ∧ (s.setDir line e).turn = s.turn ∧
    (s.setDir line e).now = s.now := by
  and_intros <;> rfl

/-- A byte at its home: L2 takes the new value, and the rest of the state stays. -/
@[simp] theorem State.setHomeByte_fields (s : State) (k : Nat) (b : Byte) :
    (s.setHomeByte k b).l2 = tput s.l2 k b ∧ (s.setHomeByte k b).mem = s.mem ∧ (s.setHomeByte k b).dir = s.dir ∧
    (s.setHomeByte k b).ucopy = s.ucopy ∧ (s.setHomeByte k b).dies = s.dies ∧ (s.setHomeByte k b).clusters = s.clusters ∧
    (s.setHomeByte k b).subs = s.subs ∧ (s.setHomeByte k b).warps = s.warps ∧ (s.setHomeByte k b).teams = s.teams ∧
    (s.setHomeByte k b).launches = s.launches ∧ (s.setHomeByte k b).parts = s.parts ∧ (s.setHomeByte k b).ctxs = s.ctxs ∧
    (s.setHomeByte k b).windows = s.windows ∧ (s.setHomeByte k b).calendar = s.calendar ∧ (s.setHomeByte k b).staged = s.staged ∧
    (s.setHomeByte k b).lnidNext = s.lnidNext ∧ (s.setHomeByte k b).suspended = s.suspended ∧ (s.setHomeByte k b).roots = s.roots ∧
    (s.setHomeByte k b).orphans = s.orphans ∧ (s.setHomeByte k b).dealt = s.dealt ∧ (s.setHomeByte k b).mops = s.mops ∧
    (s.setHomeByte k b).replies = s.replies ∧ (s.setHomeByte k b).copies = s.copies ∧ (s.setHomeByte k b).mats = s.mats ∧
    (s.setHomeByte k b).walks = s.walks ∧ (s.setHomeByte k b).tsets = s.tsets ∧ (s.setHomeByte k b).deals = s.deals ∧
    (s.setHomeByte k b).cuts = s.cuts ∧ (s.setHomeByte k b).pushes = s.pushes ∧ (s.setHomeByte k b).oldHandles = s.oldHandles ∧
    (s.setHomeByte k b).posted = s.posted ∧ (s.setHomeByte k b).published = s.published ∧ (s.setHomeByte k b).outbox = s.outbox ∧
    (s.setHomeByte k b).requests = s.requests ∧ (s.setHomeByte k b).cgroups = s.cgroups ∧
    (s.setHomeByte k b).proposals = s.proposals ∧ (s.setHomeByte k b).committed = s.committed ∧
    (s.setHomeByte k b).keySlots = s.keySlots ∧ (s.setHomeByte k b).taken = s.taken ∧ (s.setHomeByte k b).cmsgs = s.cmsgs ∧
    (s.setHomeByte k b).carried = s.carried ∧ (s.setHomeByte k b).inboxes = s.inboxes ∧ (s.setHomeByte k b).pollers = s.pollers ∧
    (s.setHomeByte k b).unreachable = s.unreachable ∧ (s.setHomeByte k b).preempts = s.preempts ∧
    (s.setHomeByte k b).sreg = s.sreg ∧ (s.setHomeByte k b).bad = s.bad ∧ (s.setHomeByte k b).tests = s.tests ∧
    (s.setHomeByte k b).elog = s.elog ∧ (s.setHomeByte k b).meas = s.meas ∧ (s.setHomeByte k b).bstate = s.bstate ∧
    (s.setHomeByte k b).berr = s.berr ∧ (s.setHomeByte k b).doorbell = s.doorbell ∧ (s.setHomeByte k b).bar2 = s.bar2 ∧
    (s.setHomeByte k b).staging = s.staging ∧ (s.setHomeByte k b).flashA = s.flashA ∧ (s.setHomeByte k b).flashB = s.flashB ∧
    (s.setHomeByte k b).fuseKey = s.fuseKey ∧ (s.setHomeByte k b).fuseSvn = s.fuseSvn ∧ (s.setHomeByte k b).ckpt = s.ckpt ∧
    (s.setHomeByte k b).interrupts = s.interrupts ∧ (s.setHomeByte k b).cur = s.cur ∧ (s.setHomeByte k b).issue = s.issue ∧
    (s.setHomeByte k b).agenda = s.agenda ∧ (s.setHomeByte k b).owed = s.owed ∧ (s.setHomeByte k b).free = s.free ∧
    (s.setHomeByte k b).nextId = s.nextId ∧ (s.setHomeByte k b).turn = s.turn ∧ (s.setHomeByte k b).now = s.now := by
  and_intros <;> rfl

/-- A change of a warp that may be absent: only its table differs. -/
@[simp] theorem State.modWarp_fields (s : State) (g : Nat) (h : Warp → Warp) :
    (s.modWarp g h).mem = s.mem ∧ (s.modWarp g h).l2 = s.l2 ∧ (s.modWarp g h).dir = s.dir ∧ (s.modWarp g h).ucopy = s.ucopy ∧
    (s.modWarp g h).dies = s.dies ∧ (s.modWarp g h).clusters = s.clusters ∧ (s.modWarp g h).subs = s.subs ∧
    (s.modWarp g h).teams = s.teams ∧ (s.modWarp g h).launches = s.launches ∧ (s.modWarp g h).parts = s.parts ∧
    (s.modWarp g h).ctxs = s.ctxs ∧ (s.modWarp g h).windows = s.windows ∧ (s.modWarp g h).calendar = s.calendar ∧
    (s.modWarp g h).staged = s.staged ∧ (s.modWarp g h).lnidNext = s.lnidNext ∧ (s.modWarp g h).suspended = s.suspended ∧
    (s.modWarp g h).roots = s.roots ∧ (s.modWarp g h).orphans = s.orphans ∧ (s.modWarp g h).dealt = s.dealt ∧
    (s.modWarp g h).mops = s.mops ∧ (s.modWarp g h).replies = s.replies ∧ (s.modWarp g h).copies = s.copies ∧
    (s.modWarp g h).mats = s.mats ∧ (s.modWarp g h).walks = s.walks ∧ (s.modWarp g h).tsets = s.tsets ∧
    (s.modWarp g h).deals = s.deals ∧ (s.modWarp g h).cuts = s.cuts ∧ (s.modWarp g h).pushes = s.pushes ∧
    (s.modWarp g h).oldHandles = s.oldHandles ∧ (s.modWarp g h).posted = s.posted ∧ (s.modWarp g h).published = s.published ∧
    (s.modWarp g h).outbox = s.outbox ∧ (s.modWarp g h).requests = s.requests ∧ (s.modWarp g h).cgroups = s.cgroups ∧
    (s.modWarp g h).proposals = s.proposals ∧ (s.modWarp g h).committed = s.committed ∧ (s.modWarp g h).keySlots = s.keySlots ∧
    (s.modWarp g h).taken = s.taken ∧ (s.modWarp g h).cmsgs = s.cmsgs ∧ (s.modWarp g h).carried = s.carried ∧
    (s.modWarp g h).inboxes = s.inboxes ∧ (s.modWarp g h).pollers = s.pollers ∧ (s.modWarp g h).unreachable = s.unreachable ∧
    (s.modWarp g h).preempts = s.preempts ∧ (s.modWarp g h).sreg = s.sreg ∧ (s.modWarp g h).bad = s.bad ∧
    (s.modWarp g h).tests = s.tests ∧ (s.modWarp g h).elog = s.elog ∧ (s.modWarp g h).meas = s.meas ∧
    (s.modWarp g h).bstate = s.bstate ∧ (s.modWarp g h).berr = s.berr ∧ (s.modWarp g h).doorbell = s.doorbell ∧
    (s.modWarp g h).bar2 = s.bar2 ∧ (s.modWarp g h).staging = s.staging ∧ (s.modWarp g h).flashA = s.flashA ∧
    (s.modWarp g h).flashB = s.flashB ∧ (s.modWarp g h).fuseKey = s.fuseKey ∧ (s.modWarp g h).fuseSvn = s.fuseSvn ∧
    (s.modWarp g h).ckpt = s.ckpt ∧ (s.modWarp g h).interrupts = s.interrupts ∧ (s.modWarp g h).cur = s.cur ∧
    (s.modWarp g h).issue = s.issue ∧ (s.modWarp g h).agenda = s.agenda ∧ (s.modWarp g h).owed = s.owed ∧
    (s.modWarp g h).free = s.free ∧ (s.modWarp g h).nextId = s.nextId ∧ (s.modWarp g h).turn = s.turn ∧
    (s.modWarp g h).now = s.now := by
  unfold State.modWarp
  split <;> and_intros <;> rfl

/-- A change of a team that may be absent: only its table differs. -/
@[simp] theorem State.modTeam_fields (s : State) (t : Nat) (h : Team → Team) :
    (s.modTeam t h).mem = s.mem ∧ (s.modTeam t h).l2 = s.l2 ∧ (s.modTeam t h).dir = s.dir ∧ (s.modTeam t h).ucopy = s.ucopy ∧
    (s.modTeam t h).dies = s.dies ∧ (s.modTeam t h).clusters = s.clusters ∧ (s.modTeam t h).subs = s.subs ∧
    (s.modTeam t h).warps = s.warps ∧ (s.modTeam t h).launches = s.launches ∧ (s.modTeam t h).parts = s.parts ∧
    (s.modTeam t h).ctxs = s.ctxs ∧ (s.modTeam t h).windows = s.windows ∧ (s.modTeam t h).calendar = s.calendar ∧
    (s.modTeam t h).staged = s.staged ∧ (s.modTeam t h).lnidNext = s.lnidNext ∧ (s.modTeam t h).suspended = s.suspended ∧
    (s.modTeam t h).roots = s.roots ∧ (s.modTeam t h).orphans = s.orphans ∧ (s.modTeam t h).dealt = s.dealt ∧
    (s.modTeam t h).mops = s.mops ∧ (s.modTeam t h).replies = s.replies ∧ (s.modTeam t h).copies = s.copies ∧
    (s.modTeam t h).mats = s.mats ∧ (s.modTeam t h).walks = s.walks ∧ (s.modTeam t h).tsets = s.tsets ∧
    (s.modTeam t h).deals = s.deals ∧ (s.modTeam t h).cuts = s.cuts ∧ (s.modTeam t h).pushes = s.pushes ∧
    (s.modTeam t h).oldHandles = s.oldHandles ∧ (s.modTeam t h).posted = s.posted ∧ (s.modTeam t h).published = s.published ∧
    (s.modTeam t h).outbox = s.outbox ∧ (s.modTeam t h).requests = s.requests ∧ (s.modTeam t h).cgroups = s.cgroups ∧
    (s.modTeam t h).proposals = s.proposals ∧ (s.modTeam t h).committed = s.committed ∧ (s.modTeam t h).keySlots = s.keySlots ∧
    (s.modTeam t h).taken = s.taken ∧ (s.modTeam t h).cmsgs = s.cmsgs ∧ (s.modTeam t h).carried = s.carried ∧
    (s.modTeam t h).inboxes = s.inboxes ∧ (s.modTeam t h).pollers = s.pollers ∧ (s.modTeam t h).unreachable = s.unreachable ∧
    (s.modTeam t h).preempts = s.preempts ∧ (s.modTeam t h).sreg = s.sreg ∧ (s.modTeam t h).bad = s.bad ∧
    (s.modTeam t h).tests = s.tests ∧ (s.modTeam t h).elog = s.elog ∧ (s.modTeam t h).meas = s.meas ∧
    (s.modTeam t h).bstate = s.bstate ∧ (s.modTeam t h).berr = s.berr ∧ (s.modTeam t h).doorbell = s.doorbell ∧
    (s.modTeam t h).bar2 = s.bar2 ∧ (s.modTeam t h).staging = s.staging ∧ (s.modTeam t h).flashA = s.flashA ∧
    (s.modTeam t h).flashB = s.flashB ∧ (s.modTeam t h).fuseKey = s.fuseKey ∧ (s.modTeam t h).fuseSvn = s.fuseSvn ∧
    (s.modTeam t h).ckpt = s.ckpt ∧ (s.modTeam t h).interrupts = s.interrupts ∧ (s.modTeam t h).cur = s.cur ∧
    (s.modTeam t h).issue = s.issue ∧ (s.modTeam t h).agenda = s.agenda ∧ (s.modTeam t h).owed = s.owed ∧
    (s.modTeam t h).free = s.free ∧ (s.modTeam t h).nextId = s.nextId ∧ (s.modTeam t h).turn = s.turn ∧
    (s.modTeam t h).now = s.now := by
  unfold State.modTeam
  split <;> and_intros <;> rfl

end Sys2Proof.Machine
end

