-- ==== Sys2Proof/Laws/Vector.lean ====
section
/-! SUPPORT. What the shared operations of the vector slot do. -/

namespace Sys2Proof.Machine

/-- A vector result put in flight by the warp that issues. -/
theorem pushVec_effect (s : State) (w : Warp) (code cls : Nat) (wide : Bool) (lanes latchLanes : Lanes) (val : Nat → DWord) :
    VecEffect s ((s.setWarp s.cur (s.issuer w)).pushVec code cls wide lanes latchLanes val) w code cls wide lanes latchLanes
      val := by
  unfold State.pushVec
  rw [launchCur_setWarp]
  have hm : ∀ (m : Lanes) (g : Nat → Word) (l : Nat), m.getLsbD l → tget 0 (laneTable 0 m g) l = g l := fun m g l h => by
    rw [tget_laneTable, if_pos h]
  cases wide with
  | false =>
    refine ⟨_, rfl, ⟨fun q hq => ?_, fun q hq => ?_⟩, ⟨_, (mem_insertFlight _ _ _).2 (Or.inl rfl), ⟨rfl, rfl, _, rfl, ?_⟩,
      rfl, rfl, fun l h => hm lanes _ l h, rfl, rfl⟩, fun h => by cases h⟩
    · exact (mem_insertFlight _ _ _).2 (Or.inr hq)
    · rcases (mem_insertFlight _ _ _).1 hq with h | h
      · exact Or.inr (by rw [h]; exact List.mem_cons_self)
      · exact Or.inl h
    · exact fun l h => by rw [tget_laneTable, if_pos h]
  | true =>
    refine ⟨_, rfl, ⟨fun q hq => ?_, fun q hq => ?_⟩,
      ⟨_, (mem_insertFlight _ _ _).2 (Or.inr ((mem_insertFlight _ _ _).2 (Or.inl rfl))), ⟨rfl, rfl, _, rfl, ?_⟩,
        rfl, rfl, fun l h => hm lanes _ l h, rfl, rfl⟩,
      fun _ => ⟨_, (mem_insertFlight _ _ _).2 (Or.inl rfl), rfl, rfl, fun l h => hm lanes _ l h, rfl, rfl⟩⟩
    · exact (mem_insertFlight _ _ _).2 (Or.inr ((mem_insertFlight _ _ _).2 (Or.inr hq)))
    · rcases (mem_insertFlight _ _ _).1 hq with h | h
      · exact Or.inr (by rw [h]; exact List.mem_cons_of_mem _ List.mem_cons_self)
      · rcases (mem_insertFlight _ _ _).1 h with h | h
        · exact Or.inr (by rw [h]; exact List.mem_cons_self)
        · exact Or.inl h
    · exact fun l h => by rw [tget_laneTable, if_pos h]

/-- An operation with a V, S or `%zero` destination, whose value in each lane is in a relation to its sources. -/
theorem vecOp_writes (i : Instr) (f : Syl) (cls : Nat) (wide : Bool) (val : Warp → State → Nat → DWord)
    (rel : State → Warp → Nat → DWord → Prop) (he : ∀ s, exec i s = vecOp i f cls wide val s)
    (hv : ∃ op, view i = .syl .vector op f)
    (hs : ∀ fmt, ∃ h, shapeAt i fmt = some h) (hr : ∀ s x l, l < 64 → rel s x l (val x (s.setWarp s.cur x) l)) :
    VecWrites i f (fun _ => cls) (fun _ => wide) rel := by
  intro s w hw
  obtain ⟨op, hop⟩ := hv
  obtain ⟨h, hh⟩ := hs (s.issuer w).r.fmt
  have e := he s
  unfold vecOp at e
  rw [runSyl_issuing i s w _ hw] at e
  simp only [hh] at e
  have hsc : scalarVec i (s.issuer w).r.fmt = isScalarForm h f := by
    unfold scalarVec; rw [hop, hh]
  constructor
  · intro h0
    have h0' : (s.issuer w).r.active f.g1 f.g2 = 0 := h0
    unfold State.vecResult at e
    simp only [h0', if_true] at e
    exact e
  · intro h0
    have h0' : ¬ (s.issuer w).r.active f.g1 f.g2 = 0 := h0
    refine ⟨val (s.issuer w) (s.setWarp s.cur (s.issuer w)), fun l hl => hr s _ l hl, _, e, ?_⟩
    unfold State.vecResult
    simp only [h0', if_false, hsc]
    split
    · exact pushVec_effect s w _ _ _ _ _ _
    · exact pushVec_effect s w _ _ _ _ _ _

/-- An operation that writes a predicate from a test of each active lane. -/
theorem predOp_writes (i : Instr) (f : Syl) (cls : Nat) (test : Warp → State → Nat → Bool) (rel : State → Warp → Nat → Prop)
    (he : ∀ s, exec i s = predOp i f cls test s) (hr : ∀ s x l, l < 64 → (test x (s.setWarp s.cur x) l = true ↔ rel s x l)) :
    PredWrites i f cls rel := by
  intro s w hw
  have e := he s
  unfold predOp at e
  rw [runSyl_issuing i s w _ hw] at e
  constructor
  · intro h0
    have h0' : (s.issuer w).r.active f.g1 f.g2 = 0 := h0
    simp only [h0', if_true] at e
    exact e
  · intro h0
    have h0' : ¬ (s.issuer w).r.active f.g1 f.g2 = 0 := h0
    simp only [h0', if_false] at e
    refine ⟨_, e, ?_⟩
    unfold State.pushPred
    rw [launchCur_setWarp]
    refine ⟨_, rfl, ⟨fun q hq => (mem_insertFlight _ _ _).2 (Or.inr hq), fun q hq => ?_⟩,
      _, (mem_insertFlight _ _ _).2 (Or.inl rfl), rfl, rfl, rfl, fun l hl => ?_, rfl, rfl⟩
    · rcases (mem_insertFlight _ _ _).1 hq with h | h
      · exact Or.inr (by rw [h]; exact List.mem_cons_self)
      · exact Or.inl h
    · have hl64 : l < 64 := BitVec.lt_of_getLsbD hl
      have ht := hr s (s.issuer w) l hl64
      rw [tget_laneTable, if_pos hl, BitVec.getLsbD_and, getLsbD_maskOf, hl]
      simp only [hl64, decide_true, Bool.true_and]
      by_cases hb : test (s.issuer w) (s.setWarp s.cur (s.issuer w)) l = true
      · exact Or.inl ⟨if_pos hb, ht.1 hb⟩
      · exact Or.inr ⟨if_neg hb, fun hn => hb (ht.2 hn)⟩

end Sys2Proof.Machine
end

