-- ==== Sys2Proof/Laws/Walks.lean ====
section
/-! SUPPORT. What a read or a write at a home, a page walk and a translation leave as it is. -/

namespace Sys2Proof.Machine

/-- Memory below L2, the teams with their allocations, the operations in flight, the results to come, the claim groups and the next identity
are those of another state. -/
structure SameWork (s t : State) : Prop where
  mem : t.mem = s.mem
  teams : t.teams = s.teams
  oldHandles : t.oldHandles = s.oldHandles
  mops : t.mops = s.mops
  replies : t.replies = s.replies
  cgroups : t.cgroups = s.cgroups
  nextId : t.nextId = s.nextId

theorem SameWork.refl (s : State) : SameWork s s := ⟨rfl, rfl, rfl, rfl, rfl, rfl, rfl⟩

theorem SameWork.trans {s t u : State} (h : SameWork s t) (k : SameWork t u) : SameWork s u :=
  ⟨k.mem.trans h.mem, k.teams.trans h.teams, k.oldHandles.trans h.oldHandles, k.mops.trans h.mops, k.replies.trans h.replies,
    k.cgroups.trans h.cgroups, k.nextId.trans h.nextId⟩

/-- What every act of a list keeps, the list keeps. -/
theorem SameWork.foldl {β : Type} (f : State → β → State) (h : ∀ s b, SameWork s (f s b)) (l : List β) (s : State) :
    SameWork s (l.foldl f s) := by
  induction l generalizing s with
  | nil => exact .refl s
  | cons b t ih => exact (h s b).trans (ih _)

theorem SameWork.modWarp (s : State) (g : Nat) (f : Warp → Warp) : SameWork s (s.modWarp g f) := by
  unfold State.modWarp
  split <;> exact ⟨rfl, rfl, rfl, rfl, rfl, rfl, rfl⟩

theorem SameWork.modOwner (s : State) (g : Nat) (f : Warp → Warp) : SameWork s (s.modOwner g f) := by
  unfold State.modOwner
  split
  · exact ⟨rfl, rfl, rfl, rfl, rfl, rfl, rfl⟩
  · split <;> exact ⟨rfl, rfl, rfl, rfl, rfl, rfl, rfl⟩
  · exact .refl s

theorem SameWork.noteStores (s : State) (g r : Nat) (acc : Lanes) (xs : List (Nat × Lanes)) : SameWork s (s.noteStores g r acc xs) := by
  unfold State.noteStores
  dsimp only
  split
  · exact .refl s
  · exact .modOwner s g _

theorem SameWork.acquireAt (s : State) (g : Nat) (m : Lanes) (scope : Nat) (ps : List (Nat × Nat)) :
    SameWork s (s.acquireAt g m scope ps) := by
  unfold State.acquireAt
  split
  · exact .refl s
  · exact .noteStores ..

theorem SameWork.wakeWaiter (s : State) (g k n : Nat) (w : Warp) : SameWork s (s.wakeWaiter g k n w) := by
  unfold State.wakeWaiter
  split <;> exact ⟨rfl, rfl, rfl, rfl, rfl, rfl, rfl⟩

theorem SameWork.testCounters (s : State) (k n : Nat) : SameWork s (s.testCounters k n) := by
  refine .foldl _ (fun s e => ?_) _ s
  dsimp only
  split
  · exact (SameWork.wakeWaiter s e.1 k n e.2).trans ((SameWork.acquireAt ..).trans (.modWarp ..))
  · exact .wakeWaiter s e.1 k n e.2

theorem SameWork.setHomeBytes (s : State) (k : Nat) (bs : List Byte) : SameWork s (s.setHomeBytes k bs) :=
  .foldl (fun s (e : Byte × Nat) => s.setHomeByte (k + e.2) e.1) (fun _ _ => ⟨rfl, rfl, rfl, rfl, rfl, rfl, rfl⟩) _ s

theorem SameWork.evictCopy (s : State) (die line : Nat) : SameWork s (s.evictCopy die line) := by
  refine .foldl _ (fun s e => ?_) _ s
  have h : SameWork s (s.applyPartial (copyPlace e.1) e.2) := (SameWork.setHomeBytes ..).trans (.testCounters ..)
  exact h.trans ⟨rfl, rfl, rfl, rfl, rfl, rfl, rfl⟩

theorem SameWork.combineLine (s : State) (line : Nat) : SameWork s (s.combineLine line) :=
  .foldl _ (fun s d => .evictCopy s d line) _ s

theorem SameWork.homeRead (s : State) (k n : Nat) : SameWork s (s.homeRead k n).1 := .combineLine s _

theorem SameWork.homeWrite (s : State) (k : Nat) (bs : List Byte) : SameWork s (s.homeWrite k bs) := by
  have h : SameWork s ((s.combineLine (lineOf k)).dropShared (lineOf k)) :=
    (SameWork.combineLine s _).trans ⟨rfl, rfl, rfl, rfl, rfl, rfl, rfl⟩
  exact h.trans ((SameWork.setHomeBytes ..).trans (.testCounters ..))

theorem SameWork.walkFrom (who : Who) (acc : Acc) (va fuel : Nat) (s : State) (pa : Nat) :
    SameWork s (walkFrom who acc va fuel s pa).1 := by
  induction fuel generalizing s pa with
  | zero => exact .refl s
  | succ n ih =>
    have h := fun k => SameWork.homeRead s k 8
    unfold Machine.walkFrom
    dsimp only
    repeat' split
    all_goals first
      | exact h _
      | exact (h _).trans (ih _ _)

theorem SameWork.walk (s : State) (who : Who) (acc : Acc) (va : Nat) : SameWork s (walk s who acc va).1 := by
  unfold Machine.walk
  dsimp only
  split
  · exact .walkFrom ..
  · exact .refl s

theorem SameWork.tlbFill (s : State) (cl : Nat) (e : TlbEntry) : SameWork s (s.tlbFill cl e) := ⟨rfl, rfl, rfl, rfl, rfl, rfl, rfl⟩

theorem SameWork.markLeaf (s : State) (e pa : Nat) (acc : Acc) : SameWork s (s.markLeaf e pa acc).1 := by
  unfold State.markLeaf
  generalize e ||| 512 ||| (if acc.writes then 1024 else 0) = q
  dsimp only
  split
  · exact .refl s
  · exact .homeWrite ..

theorem SameWork.translateWalk (s : State) (cl : Nat) (who : Who) (acc : Acc) (va : Nat) :
    SameWork s (translateWalk s cl who acc va).1 := by
  have h := SameWork.walk s who acc va
  unfold Machine.translateWalk
  revert h
  generalize Machine.walk s who acc va = r
  rintro h
  obtain ⟨t, e | r⟩ := r
  · exact h.trans ((SameWork.markLeaf ..).trans (.tlbFill ..))
  · exact h

theorem SameWork.setDirty (s : State) (cl : Nat) (e : TlbEntry) : SameWork s (s.setDirty cl e).1 := by
  unfold State.setDirty
  dsimp only
  split
  · exact (SameWork.homeRead ..).trans ((SameWork.homeWrite ..).trans (.tlbFill ..))
  · exact .homeRead s _ 8

theorem SameWork.translate (s : State) (cl : Nat) (who : Who) (acc : Acc) (va : Nat) : SameWork s (translate s cl who acc va).1 := by
  unfold Machine.translate
  split
  · exact .translateWalk ..
  · split
    · exact .refl s
    · split
      · have h := SameWork.setDirty s cl
        split
        · rename_i q
          have g := h (by assumption)
          rw [q] at g
          exact g
        · rename_i q
          have g := h (by assumption)
          rw [q] at g
          exact g.trans (.translateWalk ..)
      · exact .refl s

/-- A translation of a range changes none of it. -/
theorem SameWork.xlatePieces (cl : Nat) (who : Who) (acc : Acc) (fuel : Nat) (s : State) (va n : Nat) :
    SameWork s (xlatePieces cl who acc fuel s va n).1 := by
  induction fuel generalizing s va n with
  | zero => exact .refl s
  | succ k ih =>
    have h := SameWork.translate s cl who acc va
    unfold Machine.xlatePieces
    revert h
    generalize Machine.translate s cl who acc va = r
    intro h
    obtain ⟨t, x⟩ := r
    split
    · exact .refl s
    · split
      · exact .refl s
      · cases x with
        | ok p =>
          have g := ih t (va + pagePart va n) (n - pagePart va n)
          revert g
          dsimp only
          generalize Machine.xlatePieces cl who acc k t (va + pagePart va n) (n - pagePart va n) = q
          intro g
          obtain ⟨u, e | ps⟩ := q <;> exact h.trans g
        | fault q => exact h
        | miss => exact h

theorem SameWork.xlateRange (cl : Nat) (who : Who) (acc : Acc) (s : State) (va n : Nat) :
    SameWork s (xlateRange cl who acc s va n).1 := .xlatePieces ..

end Sys2Proof.Machine
end

