-- ==== Sys2Proof/Tests/Slice0.lean ====
section
/-! SUPPORT. Tests: words decoded from the spec's encodings, the issue checks on ill-formed words, single steps, and for each
statement with hypotheses a state and operands that meet them. -/

namespace Sys2Proof.Tests

open Sys2Proof Sys2Proof.Machine

set_option Elab.async false

/-! ### Words of the spec -/

/-- The fields d, a, b, c, e and m of a syllable with both guards true (R44). -/
def syl (d a b c e : BitVec 8) (m : BitVec 3 := 0) : Syl :=
  { g1 := 7, g2 := 7, d := d, a := a, b := b, c := c, e := e, xa := false, xb := false, xc := false, m := m, h := 0 }

def ctl (a : BitVec 8) (imm : Word) : Ctl := { g1 := 7, g2 := 7, gap := 0, land := false, yield := false, a := a, imm := imm }

theorem test_decode_vector :
    decodeSyllable .vector 0x017709F5F9000500 = .ok (.vadd (syl 9 0xF5 0xF9 0 5)) ∧
    decodeSyllable .vector 0x2277080405000000 = .ok (.vfmul (syl 8 4 5 0 0)) ∧
    decodeSyllable .vector 0x1877C9F800000000 = .ok (.vmov (syl 0xC9 0xF8 0 0 0)) ∧
    decodeSyllable .vector 0x5377C20100000000 = .ok (.vballot (syl 0xC2 1 0 0 0)) ∧
    decodeSyllable .vector 0x521705F800000400 = .ok (.vscan { syl 5 0xF8 0 0 4 with g1 := 1 }) ∧
    decodeSyllable .vector 0x5119C7F500000004 = .ok (.vred { syl 0xC7 0xF5 0 0 0 1 with g1 := 1, g2 := 9 }) := ⟨rfl, rfl, rfl, rfl, rfl, rfl⟩

theorem test_decode_memory :
    decodeSyllable .memory 0x017728C405000010 = .ok (.ldg (syl 40 0xC4 5 0 0 4)) ∧
    decodeSyllable .memory 0x1117C8C4F4020300 = .ok (.qpost { syl 0xC8 0xC4 0xF4 2 3 with g1 := 1 }) ∧
    decodeSyllable .memory 0x122704C4F4000300 = .ok (.qtake { syl 4 0xC4 0xF4 0 3 with g1 := 2 }) ∧
    decodeSyllable .memory 0x137700C4F4C60300 = .ok (.tlsig (syl 0 0xC4 0xF4 0xC6 3)) := ⟨rfl, rfl, rfl, rfl⟩

theorem test_decode_engine :
    decodeSyllable .engine 0x1277030000000100 = .ok (.macq (syl 3 0 0 0 1)) ∧
    decodeSyllable .engine 0x1077031018000200 = .ok (.mma (syl 3 16 24 0 2)) ∧
    decodeSyllable .engine 0x1377280300000004 = .ok (.mrel (syl 40 3 0 0 0 1)) ∧
    decodeSyllable .engine 0x307700C4C5C60200 = .ok (.claim (syl 0 0xC4 0xC5 0xC6 2)) ∧
    decodeSyllable .engine 0x3177C8C4C9000000 = .ok (.object (syl 0xC8 0xC4 0xC9 0 0)) := ⟨rfl, rfl, rfl, rfl, rfl⟩

theorem test_decode_control :
    decodeSyllable .control 0x057700000000000A = .ok (.jset (ctl 0 10)) ∧
    decodeSyllable .control 0x0417000000000008 = .ok (.brd { ctl 0 8 with g1 := 1 }) ∧
    decodeSyllable .control 0x0927000000000000 = .ok (.exit { ctl 0 0 with g1 := 2 }) ∧
    decodeSyllable .control 0x0000400000000010 = .ok (.nop { ctl 0 16 with g1 := 0, g2 := 0, gap := 2 }) ∧
    decodeSyllable .control 0x1777200000000003 = .ok (.trap { ctl 0 3 with gap := 1 }) ∧
    decodeSyllable .control 0x187700E800000000 = .ok (.rft (ctl 0xE8 0)) ∧
    decodeSyllable .control 0x1D77000000000007 = .ok (.bkpt (ctl 0 7)) := ⟨rfl, rfl, rfl, rfl, rfl, rfl, rfl⟩

/-! ### Ill-formed words, one for each check (R55) -/

theorem test_refuse_opcode : decodeSyllable .vector 0x1C77000000000000 = .error .unassignedOpcode ∧
    decodeSyllable .memory 0x1777000000000000 = .error .unassignedOpcode ∧
    decodeSyllable .engine 0x0677000000000000 = .error .unassignedOpcode ∧
    decodeSyllable .control 0x1F77000000000000 = .error .unassignedOpcode := ⟨rfl, rfl, rfl, rfl⟩

/-- H, an unused field, X beside a code that is no register, E that nothing uses, a NOP's field, control bits [42:40]. -/
theorem test_refuse_reserved_field :
    decodeSyllable .vector 0x0177090102000001 = .error .reservedField ∧
    decodeSyllable .vector 0x0177090102010000 = .error .reservedField ∧
    decodeSyllable .vector 0x017709F502000080 = .error .reservedField ∧
    decodeSyllable .vector 0x0177090102000100 = .error .reservedField ∧
    decodeSyllable .vector 0x0077010000000000 = .error .reservedField ∧
    decodeSyllable .control 0x0077010000000000 = .error .reservedField ∧
    decodeSyllable .control 0x0977000100000000 = .error .reservedField := ⟨rfl, rfl, rfl, rfl, rfl, rfl, rfl⟩

theorem test_refuse_reserved_operand : decodeSyllable .vector 0x017709FA02000000 = .error .reservedOperand ∧
    decodeSyllable .vector 0x0177FA0102000000 = .error .reservedOperand ∧
    decodeSyllable .control 0x187700FA00000000 = .error .reservedOperand := ⟨rfl, rfl, rfl⟩

/-- `%e8` where E is a modifier, in VREQ; `%imm` as the source of a control operation. -/
theorem test_refuse_immediate : decodeSyllable .vector 0x1B7709F902030000 = .error .immediateMisuse ∧
    decodeSyllable .control 0x187700F800000000 = .error .immediateMisuse := ⟨rfl, rfl⟩

/-- A shift of VREQ above 31, a flag byte above 7, condition 7 of VOTE, a hint of LDG that is not assigned. -/
theorem test_refuse_modifier : decodeSyllable .vector 0x1B77090102032000 = .error .reservedModifier ∧
    decodeSyllable .engine 0x1277030000000800 = .error .reservedModifier ∧
    decodeSyllable .vector 0x557701020000001C = .error .reservedModifier ∧
    decodeSyllable .memory 0x017728C40500001C = .error .reservedModifier := ⟨rfl, rfl, rfl, rfl⟩

/-- An S destination of a per-lane VADD, predicate 7 of VSEL, tile 32 of MACQ, join register 8, a V address of FENCE's kind. -/
theorem test_refuse_operand : decodeSyllable .vector 0x0177C90102000000 = .error .operandNotPermitted ∧
    decodeSyllable .vector 0x1677090102070000 = .error .operandNotPermitted ∧
    decodeSyllable .engine 0x1277200000000100 = .error .operandNotPermitted ∧
    decodeSyllable .control 0x0577000800000000 = .error .operandNotPermitted ∧
    decodeSyllable .control 0x187700F500000000 = .error .operandNotPermitted ∧
    decodeSyllable .memory 0x0D77C80102030000 = .error .operandNotPermitted := ⟨rfl, rfl, rfl, rfl, rfl, rfl⟩

theorem test_ill_formed : ¬ WellFormed (.vote (syl 1 2 0 0 0 7)) ∧ ¬ WellFormed (.boot) ∧ ¬ WellFormed (.jset (ctl 8 0)) := by
  unfold WellFormed
  decide +kernel

/-- The failing slot that comes first is named, with its lowest reason (R57). -/
theorem test_refuse_bundle : decodeBundle 0x0000000000000000_1277200000000801_0000000000000000_0000000000000000 =
    .error (.engine, .reservedField) := rfl

/-! ### States for the tests -/

def team : Team :=
  { freshTeam 0 0 0 24 1 4 8 true with
    live := [0], place := [(0, 0)],
    htab := [(1, { rows := 64, rowBytes := 1024, level1 := false, grant := 65536, gen := 9, bytes := [], deck := [] })] }

/-- A warp of lanes 0 and 1 in slot 0, with S0 = 4, S1 = 64, S2 = 2, S3 = 64, S4 = 1. -/
def warp : Warp :=
  { freshWarp (freshRegs 3 0x1000 64 [4, 64, 2, 64, 1]) 3 24 0 0 0 0 [3, 5, 8, 12] with level := .hypervisor }

/-- A part whose cluster 0 has the first GiB of addresses translated, and where a bundle of that warp issues at address 0x1000. -/
def part (w : Warp := warp) : State :=
  { State.reset with
    warps := [(0, w)], teams := [(0, team)],
    clusters := [(0, { Cluster.reset with tlb := [(0, 0, 30, 0x70F, 4)] })],
    issue := { Issue.idle with checked := true, pc := 0x1000 } }

theorem issuing (w : Warp) : Issuing (part w) w := ⟨rfl, rfl⟩

/-- The state after one step of the bundle whose only operation is a word of the table. -/
def ran (w : Nat) : State :=
  match step (State.reset.withFetchWord 256 w) with
  | .next t => t
  | _ => State.reset

/-- The warp of the image. -/
def ranWarp (w : Nat) : Warp := (tfind (ran w).warps 20416).getD warp

/-- Slot k of a bundle. -/
def slotWord (k w : Nat) : Nat := w * 2 ^ (64 * k)

/-! ### One step of a bundle; the results are worked out from the rules -/

/-- VADD V9, %lane, #5 gives 5 + 63 in lane 63, written at the end of cycle 2 and seen from cycle 3 (R20, R104). -/
theorem test_vadd : ((ranWarp 0x017709F5F9000500).r.flight.map fun q => (q.dest == .v 9, tget 0 q.vals 63, q.writeAt, q.visAt)) =
    [(true, 68, 2, 3)] := by decide +kernel

/-- VSUB V9, %lane, #5 wraps in lane 0 (R104). -/
theorem test_vsub_wraps : ((ranWarp 0x027709F5F9000500).r.flight.map fun q => tget 0 q.vals 0) = [0xFFFFFFFB] := by decide +kernel

/-- VMOV S9, %imm with GAP 2 and IMM 16: a scalar of lane 0; the next bundle is due at 3 (R39, R43, R108). -/
theorem test_vmov_scalar : ((ranWarp (slotWord 3 0x0000400000000010 + 0x1877C9F800000000)).r.flight.map fun q =>
      (q.dest == .s 9, q.lanes.toNat, tget 0 q.vals 0)) = [(true, 1, 16)] ∧
    (ranWarp (slotWord 3 0x0000400000000010 + 0x1877C9F800000000)).r.due = 3 := by decide +kernel

/-- VSHL by 32 gives 0 (R105): V9 := %lane << 32. -/
theorem test_vshl_width : ((ranWarp 0x117709F5F9002000).r.flight.map fun q => tget 0 q.vals 63) = [0] := by decide +kernel

/-- VFMUL of +0 by +0 rounds to +0, in class VF (R111). -/
theorem test_vfmul : ((ranWarp 0x2277080405000000).r.flight.map fun q => (q.cls, tget 0 q.vals 5, q.visAt)) = [(1, 0, 5)] := by
  decide +kernel

/-- VRED add over %lane of an unsigned 32-bit type to S7: 0 + 1 + … + 63 = 2016 (R122). -/
theorem test_vred : ((ranWarp 0x5177C7F500000100).r.flight.map fun q => (q.dest == .s 7, tget 0 q.vals 0)) = [(true, 2016)] := by
  decide +kernel

/-- VSCAN add over %lane, inclusive: lane 3 takes 0 + 1 + 2 + 3 (R123). -/
theorem test_vscan : ((ranWarp 0x527705F500000100).r.flight.map fun q => tget 0 q.vals 3) = [6] := by decide +kernel

/-- VBALLOT of P1, which is zero at start, gives 0 in S2 and S3 (R124). -/
theorem test_vballot : ((ranWarp 0x5377C20100000000).r.flight.map fun q => (q.dest == .s 2, q.dest == .s 3, tget 0 q.vals 0)) =
    [(true, false, 0), (false, true, 0)] := by decide +kernel

/-- LDG V40, [S0 + 0]: with a V destination, an operation of every lane, 4 bytes at the address that R281 puts into S0 and S1 (R131, R132). -/
theorem test_ldg : ((ran (slotWord 1 0x017728C0F4000010)).mops.map fun e =>
      (e.2.size, (tget 0 e.2.addr 0).toNat, e.2.dest, e.2.words, e.2.lanes == allLanes)) = [(4, 0xC000100000, 40, 1, true)] := by
  decide +kernel

/-- CSET writes its word of the shadow set (R174): word 2 := S0. -/
theorem test_cset : tget 0 (ranWarp (slotWord 2 0x017700C000000200)).r.shadow 2 = 0x00100000 := by decide +kernel

/-- MACQ of a free tile takes its token and sets the flag (R181). -/
theorem test_macq : (((ran (slotWord 2 0x1277030000000100)).sub 1276).tile 3).token = .held 20416 ∧
    ((ranWarp (slotWord 2 0x1277030000000100)).flag 1).state = 1 := by decide +kernel

/-- JSET J0 at distance 10 bundles (R209). -/
theorem test_jset : ((ranWarp (slotWord 3 0x057700000000000A)).r.joinReg 0).expect = allLanes ∧
    ((ranWarp (slotWord 3 0x057700000000000A)).r.joinReg 0).jpc = 0xC000100140 := by decide +kernel

/-- BRA +4 waits for two delay bundles, then leads to the bundle at 4 × 32 (R204). -/
theorem test_bra : ((ranWarp (slotWord 3 0x0377000000000004)).r.group.pending.map fun q => (q.left, tget 0 q.target 9)) =
    some (2, 0xC000100080) := by decide +kernel

/-- EXIT of every lane ends the warp (R211). -/
theorem test_exit : (ranWarp (slotWord 3 0x0977000000000000)).ended = true := by decide +kernel

/-- A trap at hypervisor level halts the warp (R330): BKPT #7. -/
theorem test_bkpt_hypervisor : (ranWarp (slotWord 3 0x1D77000000000007)).halted = true := by decide +kernel

/-- An unassigned opcode traps before the bundle, and at hypervisor level halts the warp (R42, R55). -/
theorem test_unassigned_opcode : (ranWarp 0x1C77000000000000).halted = true := by decide +kernel

/-- The empty boot flash fails its magic: state 1, then 2 with error 1 (R386). -/
theorem test_boot : (match exec .boot { State.reset with bstate := 1 } with
    | .next t => (t.bstate, t.berr)
    | _ => (0, 0)) = (2, 1) := by decide +kernel

/-- SHA-512 of the three bytes of "abc" (R387 names the digest; the value is that of the standard). -/
theorem test_sha512 : bytesToNat ((sha512 [0x61, 0x62, 0x63]).take 8).reverse = 0xDDAF35A193617ABA := by decide +kernel

/-! ### States that meet the hypotheses of the statements -/

/-- Guards of which no lane passes: P0, which is zero. -/
def off (f : Syl) : Syl := { f with g1 := 0 }
def offC (f : Ctl) : Ctl := { f with g1 := 0 }

def src (n : Nat) : BitVec 8 := BitVec.ofNat 8 (192 + n)

/-- A bundle issues, with two active lanes, and with none: the hypotheses of the vector statements, of GlobalAccesses,
TileAndSpillAccesses, FencesAndNoOperations, CopiesIssue, MatrixIssues, BundleEnds, BranchRegisters, Transfers, JoinsAndExit,
WarpState and SpecialRegisterWrites. -/
theorem witness_issuing : Issuing (part) warp ∧ ((part).issuer warp).r.active 7 7 = 3 ∧ ((part).issuer warp).r.active 0 7 = 0 :=
  ⟨issuing _, by decide +kernel, by decide +kernel⟩

theorem witness_SpecialFunctions : (fp32.value 0x7FC00000).isNan = true ∧ (0x48 : Nat) ≤ 0x4E ∧ 2 ^ 31 < 0x80000001 ∧
    0xFF7FFFFF < 0xFF800000 := by decide +kernel

/-- Every format has a code of its width. -/
theorem witness_Conversions : ∀ c, c < 10 → 0 < 2 ^ fmtWidth c := by decide +kernel

/-- VRED: the sum in FP64, the last operation of an integer type; VSCAN: inclusive and exclusive. -/
theorem witness_ReduceAndScan : (syl 0xC7 4 0 0 3 2).m.toNat < 3 ∧ (syl 0xC7 4 0 0 1 5).m.toNat < 6 ∧ (syl 0xC7 4 0 0 1 5).e.toNat % 4 < 2 ∧
    isS (syl 0xC7 4 0 0 1 5).d.toNat = true ∧ isS (syl 7 4 0 0 1 5).d.toNat = false := by decide +kernel

/-- VOTE at its last condition, and each reserved form. -/
theorem witness_Vote : (syl 1 2 0 0 0 6).m.toNat < 7 ∧ (syl 1 2 0 0 0 7).m.toNat = 7 ∧
    (2 ≤ (syl 1 2 0 0 1 2).m.toNat ∧ (syl 1 2 0 0 1 2).e ≠ 0) ∧ 64 < (syl 1 2 0 0 65 0).e.toNat := by decide +kernel

/-- A load, a compare and swap, and a queue post are among GlobalAccesses; an LDS and an LDL among TileAndSpillAccesses. -/
theorem witness_accesses :
    handleOf (part) warp 1 = some { rows := 64, rowBytes := 1024, level1 := false, grant := 65536, gen := 9, bytes := [], deck := [] } ∧
    accessLanes warp (.ldg (syl 40 (src 0) 4 0 0 4)) 3 = 3 ∧ accessLanes warp (.ldg (syl (src 9) (src 0) 0xF4 0 0 4)) 3 = 1 :=
  ⟨rfl, by decide +kernel, by decide +kernel⟩

/-! #### Tile handles -/

/-- HALLOC of S2 = 2, free, 4 rows of 64 bytes; of S3 = 64, invalid; of S4 = 1, in use; and with no space left. -/
def fullPart : State := { part with clusters := [(0, { Cluster.reset with spaceUsed := 2 ^ 20 })] }

theorem witness_TileHandles : tfind (part).teams warp.team = some team ∧
    (srcC ((part).issuer warp) (part) (syl (src 9) (src 0) (src 1) (src 2) 0) 0).toNat = 2 ∧ tfind team.htab 2 = none ∧
    (srcA ((part).issuer warp) (part) (syl (src 9) (src 0) (src 1) (src 2) 0) 0).toNat = 4 ∧
    (srcB ((part).issuer warp) (part) (syl (src 9) (src 0) (src 1) (src 2) 0) 0).toNat = 64 ∧
    64 ≤ (srcC ((part).issuer warp) (part) (syl (src 9) (src 0) (src 1) (src 3) 0) 0).toNat ∧
    (tfind team.htab (srcC ((part).issuer warp) (part) (syl (src 9) (src 0) (src 1) (src 4) 0) 0).toNat).isSome = true ∧
    ((part).cluster 0).spaceUsed + 256 ≤ 2 ^ 20 ∧ ¬ (fullPart.cluster 0).spaceUsed + 256 ≤ 2 ^ 20 ∧ Issuing fullPart warp :=
  ⟨rfl, by decide +kernel, rfl, by decide +kernel, by decide +kernel, by decide +kernel, by decide +kernel, by decide +kernel,
    by decide +kernel, rfl, rfl⟩

/-- HFREE and HQRY of S3 = 64, of S2 = 2, which is free, and of S4 = 1. -/
theorem witness_handle_numbers : 64 ≤ (srcA ((part).issuer warp) (part) (syl (src 9) (src 3) 0 0 0) 0).toNat ∧
    (srcA ((part).issuer warp) (part) (syl (src 9) (src 2) 0 0 0) 0).toNat = 2 ∧
    (srcA ((part).issuer warp) (part) (syl (src 9) (src 4) 0 0 0) 0).toNat = 1 := by decide +kernel

/-- A warp in precise memory mode; a PREF with no active lane, and one whose addresses 4 and 68 are odd for 8 bytes. -/
theorem witness_PreciseAccessIssues : Issuing (part { warp with precise := true }) { warp with precise := true } ∧
    ({ warp with precise := true } : Warp).precise = true ∧
    ((part { warp with precise := true }).issuer { warp with precise := true }).r.active 7 7 ≠ 0 ∧
    (srcA64 ((part).issuer warp) (part) (syl 0 (src 0) (src 1) 0 0 5) 0).toNat % 8 = 4 :=
  ⟨⟨rfl, rfl⟩, rfl, by decide +kernel, by decide +kernel⟩

/-- A warp in precise memory mode with an open checkpoint: a request waits, behind the checkpoint and with none older than it. -/
def held (ops : List Checkpoint) : Warp := { warp with precise := true, checkpoint := ops }
def opened : Checkpoint := { seq := 3, pc := 0x1000, regs := warp.r, wrote := [] }
def requested (seq : Nat) : State :=
  { part (held [opened]) with replies := [(7, { warp := 0, dest := 201, count := 1, lanes := 3, scalar := true, vals := [], ready := false,
                                                 entry := true, req := some (.hqry 1), seq := seq })] }

theorem witness_handle_requests : (held [opened]).precise = true ∧ (held [opened]).checkpoint ≠ [] ∧
    Issuing (part (held [opened])) (held [opened]) ∧ ((part (held [opened])).issuer (held [opened])).r.active 7 7 ≠ 0 ∧
    ((tfind (requested 4).replies 7).bind fun q => q.req) = some (.hqry 1) ∧ tfind (requested 4).warps 0 = some (held [opened]) ∧
    ((held [opened]).checkpoint.any fun c => decide (c.seq < 4)) = true ∧
    ((held [opened]).checkpoint.any fun c => decide (c.seq < 3)) = false :=
  ⟨rfl, by decide +kernel, ⟨rfl, rfl⟩, by decide +kernel, by decide +kernel, rfl, by decide +kernel, by decide +kernel⟩

/-! #### Accesses in flight -/

/-- Operation 5: lanes 0 and 1 at 0x100 and 0x104, of 4 bytes, with V5 as destination. -/
def access (k : MemKind) : MemOp :=
  { warp := 0, seq := 0, pc := 0x1000, syl := 0, kind := k, size := 4, signed := true, ro := false, scalar := false, lanes := 3,
    act := 3, scope := 3, fn := 0, wide := false, dest := 5, words := 1, level := .hypervisor, ctx := 0, part := 24, cluster := 0,
    spill := false, addr := [(0, 0x100), (1, 0x104)], data := [(0, 7)], pa := [(0, 0x100), (4, 0x104)], xlated := 3, team := 0, die := 0,
    sys := 0, faulted := 0, cause := 0, watch := 0, vals := [], dl := 0, cover := [], stamps := [], handle := 0, takesEntry := true,
    cycle := 0 }

def flying (o : MemOp) (s : State := part) : State := { s with mops := [(5, o)] }

theorem witness_StorePerforms : AtHome (flying (access .store)) 5 0 (access .store) 0x100 ∧
    AtHome (flying { access .store with team := 3 }) 5 0 { access .store with team := 3 } 0x100 ∧
    AtHome (flying (access .strel)) 5 0 (access .strel) 0x100 := by
  unfold AtHome LaneGoes
  decide +kernel

theorem witness_LoadPerforms : AtHome (flying (access .load)) 5 0 (access .load) 0x100 ∧
    AtHome (flying (access .ldacq)) 5 0 (access .ldacq) 0x100 ∧ (access .load).twin 0 = none ∧
    ({ access .load with addr := [(0, 0x100), (1, 0x100)], pa := [(0, 0x100), (4, 0x100)], team := 1 } : MemOp).twin 1 = some 0 := by
  unfold AtHome LaneGoes
  decide +kernel

theorem witness_AtomicPerforms : AtHome (flying { access .atom with fn := 9 }) 5 0 { access .atom with fn := 9 } 0x100 ∧
    AtHome (flying { access .red with size := 8, fn := 10 }) 5 0 { access .red with size := 8, fn := 10 } 0x100 := by
  unfold AtHome LaneGoes
  decide +kernel

/-- The addition of the greatest finite number and itself in FP32 rounds to infinity, whatever the mode of the warp (R151). -/
theorem test_fadd : atomicNew 10 32 0x7F7FFFFF 0x7F7FFFFF 0 = 0x7F800000 := by decide +kernel

/-- The same lanes in the allocation of handle 1, at the offsets 0x100 and 0x104. -/
def tileAccess (k : MemKind) : MemOp := { access k with handle := 9, pa := [] }

theorem witness_tile_accesses : ∀ o ∈ [tileAccess .tileStore, tileAccess .tileLoad, { tileAccess .tileAtom with fn := 10 }],
    AtTile (flying o) 5 0 o warp { rows := 64, rowBytes := 1024, level1 := false, grant := 65536, gen := 9, bytes := [], deck := [] } := by
  unfold AtTile LaneGoes
  decide +kernel

/-- A descriptor at 0x400 of a ring of 16 entries at 0x800, with head 2 and the given tail. -/
def ringPart (tail : Nat) (o : MemOp) : State :=
  { flying o with l2 := [(0x401, 8), (0x408, 4), (0x410, 2), (0x418, BitVec.ofNat 8 tail)] }
def ringAccess (k : MemKind) : MemOp := { access k with size := 64, addr := [(0, 0x400), (1, 0x400)], pa := [(0, 0x400), (4, 0x400)] }

/-- The test of Resident in a table of entries. -/
def resident (s : State) (o : MemOp) (acc : Acc) (va key : Nat) : Bool :=
  decide (va < 2 ^ 56) && decide (key < 3 * 2 ^ 52 - 64) && match tlbFind s o.cluster o.ctx va with
    | none => false
    | some e => (leafDenies o.who acc e.2.2.2.1.toNat).isNone && e.2.2.2.1.getLsbD 10 &&
        decide (leafPlace s acc e.2.2.1 e.2.2.2.1.toNat va = .ok key)

theorem resident_of (s : State) (o : MemOp) (acc : Acc) (va key : Nat) (h : resident s o acc va key = true) :
    Resident s o acc va key := by
  unfold resident at h
  split at h
  · simp at h
  · rename_i e he
    simp only [Bool.and_eq_true, decide_eq_true_eq, Option.isNone_iff_eq_none] at h
    exact ⟨h.1.1, h.1.2, e, he, h.2.1.1, h.2.1.2, h.2.2⟩

/-- Every access of the ring finds its page; the entries are apart. -/
def ringFits (s : State) (o : MemOp) : Bool :=
  resident s o .read 0x400 0x400 && resident s o .write 0x410 0x410 && resident s o .write 0x418 0x418 &&
  (List.range 16).all fun i => resident s o .read (0x800 + 8 * i) (0x800 + 8 * i) && resident s o .write (0x800 + 8 * i) (0x800 + 8 * i)

/-- A post of two payloads that fit, at tail 5, and that do not, at tail 17; a take. -/
theorem witness_RingsPerform : ∀ e ∈ [(ringAccess .qpost, 5), (ringAccess .qpost, 17), (ringAccess .qtake, 5)],
    let s := ringPart e.2 e.1
    AtHome s 5 0 e.1 0x400 ∧ ringFits s e.1 = true ∧ lowLane e.1.lanes = 0 ∧ s.posted = [] ∧
      ringOf (s.homeBytes 0x400 64) = { base := 0x800, caplog := 4, stage := 0, head := 2, tail := e.2, high := 0, low := 0, valid := true } ∧
      ∀ a ∈ 0x400 :: (List.range 24).map (0x800 + 8 * ·), ∀ j, j < 64 → bufferByte s 0 (a + j) = none := by
  unfold AtHome LaneGoes
  decide +kernel

/-- TLSIG; with `.set` a counter of 7 is turned back to 1 at user level. -/
theorem witness_signal : ∀ o ∈ [{ access .tlsig with size := 8 }, { access .tlsig with size := 8, fn := 8, level := .user, data := [(0, 1)] }],
    AtHome { flying o with l2 := [(0x100, 7)] } 5 0 o 0x100 := by
  unfold AtHome LaneGoes
  decide +kernel

/-- An access in precise memory mode, with both lanes ready, and with one that is not; a PREF of lanes 0 and 1, which of a warp in precise
memory mode waits for an older access. -/
theorem witness_whole_access : wholeAccess (flying (access .load) (part (held []))) (access .load) = true ∧
    (access .load).wholeLanes = [0, 1] ∧ (access .load).faulted = 0 ∧
    (∀ q ∈ (access .load).wholeLanes, inheritedCause (flying (access .load) (part (held []))) 5 (access .load) q = none) ∧
    laneReady (flying { access .load with xlated := 1 } (part (held []))) 5 { access .load with xlated := 1, team := 1 } 1 = false ∧
    prefReady (flying (access .pref)) 5 (access .pref) 0 = true ∧ (access .pref).lanes &&& ~~~laneBit 0 ≠ 0 ∧
    prefReady { part (held []) with mops := [(3, access .load), (5, access .pref)] } 5 (access .pref) 0 = false := by decide +kernel

/-- A store not yet performed. -/
def covered : Table MemOp := [(3, access .store), (5, { access .strel with cover := [(3, 3)], pa := [(0, 0x200), (4, 0x204)] })]

/-- A lane that has not been translated; a store under a checkpoint; a release that covers a store not yet performed. -/
theorem witness_ValuesReachRegisters :
    laneReady (flying { access .load with xlated := 0 }) 5 { access .load with xlated := 0 } 0 = false ∧
    ({ part with ckpt := some 0 }).ckpt.isSome = true ∧ (access .store).kind.isWrite = true ∧
    released { part with mops := covered } { access .strel with cover := [(3, 3)], pa := [(0, 0x200), (4, 0x204)] } = false ∧
    inheritedCause (flying (access .load)) 5 (access .load) 0 = none := by decide +kernel

/-- A bucket of 16 tokens of which all but one are used. -/
def shortBucket (s : State := part) : State :=
  { s with ctxs := [(0, { Context.absent with valid := true, cap := 1, rate := 1, used := [(0, 15), (1, 15), (2, 15), (3, 15)] })] }

/-- A line that a PREF requests, with its tokens and without; a whole access that has not paid; the one subject of a delivery. -/
theorem witness_tokens : (prefetchLine (flying (access .pref)) (access .pref) 0).2 = some 2 ∧ bucketPays (part) 0 (portOf 0 256) 4 = true ∧
    bucketPays (shortBucket) 0 (portOf 0 256) 4 = false ∧
    paidAll ((shortBucket (flying { access .load with pa := [(0, 0x100), (4, 0x140)] } (part (held [])))).payLanes 5 laneTokens [0, 1]) 5 [0, 1] = false ∧
    OneSubject (flying (access .load)) 5 := by
  unfold OneSubject
  decide +kernel

/-- A performed load whose two register-lanes await it. -/
def awaiting : Warp := { warp with r := { warp.r with pend := [(vKey 5 0, 6), (vKey 5 1, 6)] } }

theorem witness_result_delivery : tfind (flying { access .load with team := 3 } (part awaiting)).warps 0 = some awaiting ∧
    (tfind (flying { access .load with team := 3 } (part awaiting)).cuts 5).isNone = true ∧
    (tfind (flying { access .load with team := 3 } (part awaiting)).deals 5).isNone = true ∧
    ((access .load).dest < awaiting.r.allot ∧ (access .load).dest < 192) ∧ awaiting.r.pending (vKey 5 0) = 5 + 1 :=
  ⟨rfl, rfl, rfl, by decide +kernel, by decide +kernel⟩

/-- A scalar load that has been performed; an ICINV that covers nothing, and one that covers a store. -/
theorem witness_scalar_delivery : (192 : Nat) ≤ 200 ∧ 200 + 1 ≤ 240 ∧
    ({ access .load with dest := 200, lanes := 1, team := 1 } : MemOp).lanes &&& ~~~(1 : Lanes) = 0 ∧
    ({ access .load with dest := 200, lanes := 1, team := 1 } : MemOp).lanes &&& ~~~(0 : Lanes) ≠ 0 ∧
    ({ warp with r := { warp.r with pend := [(sKey 8, 6)] } } : Warp).r.pending (sKey 8) = 5 + 1 ∧
    released (flying { access .icinv with lanes := 0, scope := 1, dest := 200 }) { access .icinv with lanes := 0, scope := 1, dest := 200 } = true ∧
    released { part with mops := covered } { access .icinv with lanes := 0, scope := 3, cover := [(3, 3)] } = false := by decide +kernel

/-! #### Engines -/

/-- A tile held by slot 9, with one request waiting behind a release of it. -/
def heldTile : State :=
  { part with
    subs := [(0, { SubCore.reset with tiles := [(3, { Tile.reset with token := .held 9, queue := [(0, 1)] })] })],
    mats := [(5, { warp := 9, sub := 0, tile := 3, kind := .mrel, flag := 0, a := [], b := [], c := [], fmt := 0, ovt := 0, reply := 0 })] }

theorem witness_TokensAndTiles : Issuing heldTile warp ∧ ((part).sub 0).tile 3 = Tile.reset ∧
    ((heldTile.sub 0).tile 3).token = .held 9 ∧
    ((heldTile.mats.find? fun e => e.2.sub == 0 && e.2.tile == 3).map fun e => (e.1, decide (e.2.kind = .mrel))) = some (5, true) ∧
    (tfind heldTile.replies 0).isNone = true ∧ ((heldTile.sub 0).tile 3).queue = [(0, 1)] ∧ tfind heldTile.warps 0 = some warp :=
  ⟨⟨rfl, rfl⟩, by decide +kernel, by decide +kernel, by decide +kernel, by decide +kernel, by decide +kernel, rfl⟩

def matOp (k : MatKind) : MatOp := { warp := 0, sub := 0, tile := 3, kind := k, flag := 1, a := [], b := [], c := [], fmt := 0, ovt := 0, reply := 7 }

/-- The oldest operation of its tile; metadata that names two ascending places, and none such. -/
theorem witness_matrix_completes : matOldest { part with mats := [(5, matOp .mma)] } 5 (matOp .mma) = true ∧
    metaBad ((List.range 64).map fun k => (k, 4)) (fragN 0) = false ∧ metaBad [] (fragN 0) = true := by decide +kernel

/-- A tile under test, and one that has retired. -/
theorem witness_matrix_waits : (4, 32 * (matOp .mma).sub + (matOp .mma).tile) ∈ ({ part with tests := [(4, 3)] } : State).tests ∧
    (4, 32 * (matOp .mma).sub + (matOp .mma).tile) ∉ (part).bad ∧
    (({ part with subs := [(0, { SubCore.reset with tiles := [(3, { Tile.reset with token := .retired })] })] }.sub 0).tile 3).token = .retired ∧
    (((part).sub 0).tile 3).token ≠ .retired := by decide +kernel

/-! #### Traversal -/

def deck : Handle := { rows := 64, rowBytes := 1024, level1 := false, grant := 65536, gen := 9, bytes := [], deck := [] }

/-- One lane passes. -/
def oneLane : Warp := { warp with r := { warp.r with p := [(0, 1)] } }

theorem witness_DeckOperations : ((part oneLane).issuer oneLane).r.active 0 7 = laneBit 0 ∧ deckHandle (part oneLane) oneLane 1 = some deck ∧
    (part oneLane).walks = [] ∧ (part oneLane).oldHandles = [] ∧ findHandle (part oneLane) oneLane.team deck.gen = some deck ∧
    (deck.deckOf 0).top - (deck.deckOf 0).low < 64 ∧ (deck.deckOf 0).low = 0 ∧ oneLane.isTask = false ∧ Issuing (part oneLane) oneLane :=
  ⟨by decide +kernel, rfl, rfl, rfl, rfl, by decide +kernel, by decide +kernel, rfl, rfl, rfl⟩

/-- Decks of lanes 0 and 1 with nothing earlier to act on them, and with an earlier push. -/
def pushing : State :=
  { part with nextId := 9, pushes := [(3, { warp := 0, team := 0, handle := 9, entries := [(0, [1]), (1, [1])], pc := 0, syl := 0 })] }

theorem witness_deck_waits : ∀ l, l < 2 → deckWaits (part) 0 9 (part).nextId l = false ∧ deckWaits pushing 0 9 pushing.nextId l = true := by
  decide +kernel

/-- A DCUT of lane 0 at level 4, whose record translates, of a deck with an entry of level 2 below one of level 9. -/
def cut0 : Cut :=
  { warp := 0, cluster := 0, team := 0, handle := 9, todo := 0, addr := [(0, 4)], depth := [(0, 4)], records := [], written := false, pc := 0,
    syl := 0, level := .hypervisor, ctx := 0, part := 24, after := [] }

def cutRun : CutRun :=
  { s := { part oneLane with teams := [(0, { team with htab := [(1, { deck with deck := [(0, { Deck.fresh with top := 2 })], bytes := [(7, 2), (23, 9)] })] })] },
    counts := [], records := [], bad := 0, cause := 0, va := 0 }

theorem witness_cut : afterDone (part oneLane) (afterOf (part oneLane) 0 3) = true ∧ laneBit 0 &&& ~~~chipLanes (part oneLane) 0 9 = 0 ∧
    ((findHandle cutRun.s 0 9).map fun h => ((h.deckOf 0).low, (h.deckOf 0).top, (entryLevel (h.entry 0 0)).toNat, (entryLevel (h.entry 0 1)).toNat)) =
      some (0, 2, 2, 9) ∧ (xlateRange 0 cut0.who .write cutRun.s 4 80).2.isOk = true ∧ (cutLane cut0 cutRun 0).bad = 0 ∧
    (tfind (cutLane cut0 cutRun 0).s.warps 0).isSome = true := by decide +kernel

/-- The segment record of a DCUT at address S0 translates; a cluster with a cactus segment has room for a record. -/
theorem witness_dcut_range : xlateRange (clusterOf 0) oneLane.who .write (part oneLane) 4 64 = (part oneLane, .ok [(4, 64)]) := rfl

def cactusPart : State := { part with sreg := [(sregKey 0x150 0, 0x10000), (sregKey 0x151 0, 0x1000)] }

theorem witness_ddeal : cactusFit cactusPart 0 64 = some 0x10000 ∧ ((part).issuer warp).r.active 7 7 ≠ 0 := by decide +kernel

/-- A walk of both lanes over deck 1 with table 0; lane 0 is in a leave call. -/
def walk0 : Walk :=
  { warp := 0, team := 0, cluster := 0, table := 0, handle := 9, spill := 0x20000, flag := 1, lanes := 3, walking := 3, seed := [],
    errors := [], held := [(0, { node := 0x3000, level := 2, cmask := 5, aux := 7, call := 1, mask := 5, kids := [] })], pend := [],
    calling := 1, level := .hypervisor, ctx := 0, part := 24 }

def walking (x : Walk) (s : State := part) : State := { s with walks := [(5, x)] }

theorem witness_TraversalReturn : ((part oneLane).issuer oneLane).r.active 0 7 = laneBit 0 ∧ callOf (part oneLane) 0 oneLane 0 = none ∧
    callOf (walking walk0 (part oneLane)) 0 oneLane 0 = some 5 ∧ walk0.walking.getLsbD 0 = true ∧
    ((tfind walk0.held 0).map fun q => q.call) = some 1 ∧ Issuing (walking walk0 (part oneLane)) oneLane :=
  ⟨by decide +kernel, by decide +kernel, by decide +kernel, by decide +kernel, by decide +kernel, rfl, rfl⟩

/-- Lane 0 in an enter call of a node with children 0 and 2, of which the verdict 1 selects child 0; the verdict 0 selects none. -/
def entered : Walk :=
  { walk0 with held := [(0, { node := 0x3000, level := 2, cmask := 0, aux := 7, call := 0, mask := 5, kids := [0x4000, 0, 0x5000] })] }

theorem witness_enter_return : deckWaits (walking entered (part oneLane)) 0 9 (part oneLane).nextId 0 = false ∧ (tfind entered.pend 0).isNone = true ∧
    (((walking entered (part oneLane)).walks.find? fun e => e.2.warp == 0 && e.2.handle == 9 && e.2.walking.getLsbD 0).map fun e => e.1) = some 5 ∧
    callOf (walking entered (part oneLane)) 0 oneLane 0 = some 5 ∧
    ((tfind entered.held 0).map fun q => q.call) = some 0 ∧ findHandle (walking entered (part oneLane)) entered.team entered.handle = some deck ∧
    (srcA ((walking entered (part oneLane)).issuer oneLane) (walking entered (part oneLane)) (syl 0 (src 4) 0 0 0) 0 &&& 5) = 1 ∧
    (srcA ((walking entered (part oneLane)).issuer oneLane) (walking entered (part oneLane)) (syl 0 (src 2) 0 0 0) 0 &&& 5) = 0 ∧
    (deck.deckOf 0).top + 1 + 1 ≤ 4160 ∧ (deck.deckOf 0).top + 1 + 1 ≤ (deck.deckOf 0).low + 64 := by decide +kernel

/-- A node table: NSIZE 64, CNTOFF 0, CNTW 1, no test, PTROFF 8, PTRSTR 8, registers V0 to V4, no routine; and one with an enter
routine. -/
def tableBytes (enter : Nat) : List Byte :=
  natToBytes 2 64 ++ natToBytes 2 0 ++ natToBytes 1 1 ++ natToBytes 1 0 ++ natToBytes 2 8 ++ natToBytes 2 8 ++ natToBytes 1 0 ++
    natToBytes 1 2 ++ natToBytes 1 3 ++ natToBytes 1 4 ++ natToBytes 2 0 ++ List.replicate 16 0 ++ natToBytes 8 enter ++ List.replicate 24 0

/-- Memory at 0x800 and beyond holds a table. -/
def tablePart : State := { part with l2 := ((tableBytes 0).zipIdx.filter fun e => e.1 ≠ 0).map fun e => (0x800 + e.2, e.1) }

def tset0 : TSet := { warp := 0, team := 0, table := 2, addr := 0x800, pc := 0, syl := 0, lanes := 3, level := .hypervisor, after := [] }

theorem witness_tset : (readRecord 0 { warp.who with level := .hypervisor } tablePart 0x800 64).2 = .ok (tableBytes 0) ∧
    tableValid (tableBytes 0) = true ∧ (readRecord 0 { warp.who with level := .hypervisor } (part) 0x800 64).2.toOption.isSome = true ∧
    tableValid (List.replicate 64 0) = false ∧ afterDone tablePart tset0.after = true := by decide +kernel

def team2 (enter : Nat) : Team := { team with tables := [(0, tableBytes enter)] }
def decked (d : Deck) (bytes : Memory) (enter : Nat) : State :=
  { part with teams := [(0, { team2 enter with htab := [(1, { deck with deck := [(0, d)], bytes := bytes })] })] }
def popWalk : Walk := { walk0 with held := [], calling := 0 }

/-- An empty deck; one whose top is its lowest entry on chip; an open parent at the top; a node with an enter routine. -/
theorem witness_traversal_pop :
    (popWalk.walking.getLsbD 0 = true ∧ (tfind popWalk.pend 0).isNone = true ∧ popWalk.calling.getLsbD 0 = false ∧
      (tfind popWalk.held 0).isNone = true ∧ (tfind popWalk.seed 0).isNone = true) ∧
    deckWaits (walking popWalk (part)) 0 9 (walking popWalk (part)).nextId 0 = false ∧ slotOpen (part) 24 = true ∧
    ((findHandle (walking popWalk (decked { Deck.fresh with low := 16, top := 16 } [] 0)) 0 9).map fun h => ((h.deckOf 0).top, (h.deckOf 0).low)) =
      some (16, 16) ∧
    ((findHandle (walking popWalk (decked { Deck.fresh with top := 1 } [(8, 1)] 0)) 0 9).map fun h =>
      ((h.deckOf 0).top, (h.deckOf 0).low, entryMask (h.entry 0 0))) = some (1, 0, 1) ∧
    (walkTable (decked { Deck.fresh with top := 1 } [(1, 0x30)] 0x1000) popWalk).enter ≠ 0 ∧
    boundsFull warp popWalk (walkTable (part) popWalk) 0 = true ∧
    (readNode (decked { Deck.fresh with top := 1 } [(1, 0x30)] 0x1000) popWalk (nodeTab (tableBytes 0x1000)) 0x3000).2.isSome = true ∧
    builtInTest warp.r (nodeTab (tableBytes 0x1000)) [] 0 = true := by decide +kernel

/-- A full deck with an entry still to push, whose spill segment translates, and one whose segment does not. -/
theorem witness_deck_spill :
    (tfind { popWalk with pend := [(0, [1])] }.pend 0).isSome = true ∧ ({ Deck.fresh with top := 64 } : Deck).top = 0 + 64 ∧
    (engineWriteVa 0 popWalk.who (0, 1) 5 (part) 0x20000 256 []).2 = none ∧
    (engineWriteVa 0 popWalk.who (0, 1) 5 (part) (2 ^ 40) 256 []).2 ≠ none ∧
    popWalk.spillFree (part) 0 Deck.fresh = true ∧
    popWalk.spillFree (flying { access .store with pa := [(0, 0x20000), (4, 0x20004)], team := 3 }) 0 Deck.fresh = false := by decide +kernel

def groupWaits (x : Wait) : Warp := { warp with r := { warp.r with groups := [{ mask := 3, pc := 0x1000, wait := x, pending := none }] } }

/-- A lane that waits for its routine; a walk that has ended. -/
theorem witness_routine_call : (nextCall (part (groupWaits (.flag 2))) { walk0 with calling := 0 }).isSome = true ∧
    [0, 1, 2, 3, 4].Nodup ∧ (∀ n ∈ [0, 1, 2, 3, 4], n < warp.r.allot) ∧
    ({ walk0 with walking := 0, calling := 0 } : Walk).walking = 0 := by decide +kernel

def freedPart : State := { part with oldHandles := [(9, { number := 1, gone := 0, team := 0, cluster := 0, part := 24, h := deck, reply := none })] }

theorem witness_handle_space : (tfind freedPart.oldHandles 9).isSome = true ∧ handleBusy freedPart 9 = false ∧ 0 ≤ (freedPart.cluster 0).cycle := by decide +kernel

/-! #### Claims -/

def group (q : Nat := 0) : ClaimGroup := { id := 2, part := 24, cross := false, window := 100, members := [0, 0], bound := [(0, q)], next := 0 }
def grouped (q : Nat := 0) : State := { part with cgroups := [(4, group q)] }

/-- Group 4 of this device with slot 0 as member 0; with another slot; and a word that names no group. -/
theorem witness_ClaimOperations : groupName (grouped) 24 4 = .here 4 ∧ memberOf (grouped) 0 24 4 = some 0 ∧
    memberOf (grouped 9) 0 24 4 = none ∧ groupName (grouped) 24 0x1000 = .invalid ∧
    (srcA ((grouped).issuer warp) (grouped) (syl (src 8) (src 0) (src 1) (src 2) 1) 0) = 4 ∧ (group).cross = false ∧
    openOn (grouped) 4 64 = none ∧ tfind (grouped).committed (groupKey 4 64) = none ∧
    tget [] (grouped).inboxes (memberKey 4 0) = [] :=
  ⟨rfl, by decide +kernel, by decide +kernel, by decide +kernel, by decide +kernel, rfl, by decide +kernel, by decide +kernel, by decide +kernel⟩

/-- A committed key, an inbox that is not empty, and a descriptor whose address does not translate. -/
theorem witness_claim_reads :
    (tfind { grouped with committed := [(groupKey 4 64, (3, 7))] }.committed (groupKey 4 64)).isSome = true ∧
    (tget [] { grouped with inboxes := [(memberKey 4 0, [(3, 64, 7)])] }.inboxes (memberKey 4 0)).length = 1 ∧
    (readRecord 0 warp.who (part) (2 ^ 40) 64).2.isOk = false := by decide +kernel

/-- A CLGRP that waits for its slot, and a calendar without one. -/
def asking : State :=
  { part { warp with r := { warp.r with pend := [(sKey 8, 8), (sKey 9, 8)] } } with
    replies := [(7, { warp := 0, dest := 200, count := 2, lanes := 3, scalar := true, vals := [], ready := false, entry := false,
                      req := some (.group 0x800 .hypervisor) })] }

theorem witness_group_grant : OneSubject asking 7 ∧ ((tfind asking.warps 0).map fun w => (w.r.pending (sKey (200 - 192)), w.r.pending (sKey (200 - 191)))) =
      some (7 + 1, 7 + 1) ∧ slotOpen asking 24 = true ∧ slotOpen { asking with calendar := List.replicate 256 3 } 24 = false := by
  unfold OneSubject
  decide +kernel

/-- A group of another device, to which a window of the hypervisor leads. -/
def farPart (d : Nat) : State :=
  { part with windows := [(0, { base := 0, size := 2 ^ 40, target := d, host := false, atomics := true, valid := true, lost := false })] }

theorem witness_remote_group : ∃ d, ∃ word : Word, groupName (farPart d) 24 word = .remote word.toNat := by
  by_cases h : Config.deviceNumber.toNat = 200
  · exact ⟨201, 0x80C90004, by unfold groupName; simp only [h]; decide +kernel⟩
  · refine ⟨200, 0x80C80004, ?_⟩
    have h1 : (bitsOf (0x80C80004 : Word).toNat 16 8 != Config.deviceNumber.toNat) = true := by
      rw [show bitsOf (0x80C80004 : Word).toNat 16 8 = 200 from rfl]
      simpa [bne_iff_ne] using Ne.symm h
    unfold groupName
    simp only [h1]
    decide +kernel

/-- What a claim covers when nothing of its warp is in flight. -/
def noRelease : Release := { warp := 0, seq := 0, act := 3, cover := [] }

def proposal : Proposal :=
  { group := 4, num := 3, key := 64, value := 7, member := 0, claimant := .warp 0 1, ta := 0, state := 0, release := noRelease }

/-- An open proposal, at a time before and after the end of its window. -/
def proposed (time : Nat) : State :=
  { grouped with proposals := [(6, proposal)], dies := (List.range 4).map fun d => (d, { Die.reset with time := time }),
                 replies := [(7, { warp := 0, dest := 200, count := 1, lanes := 3, scalar := true, vals := [], ready := false, entry := false })] }

theorem witness_ClaimSteps : noRelease.done (grouped) 3 = true ∧ ({ noRelease with cover := [(3, 3)] } : Release).done { part with mops := covered } 4 = false ∧
    storeFails (grouped) 4 64 = false ∧ storeFails { grouped with bad := [(8, keyHome 4 64)] } 4 64 = true ∧
    takenLater (grouped) { key := groupKey 4 64, time := 0, member := 0, order := 0 } = false ∧
    [(3 : Nat)].contains (0x80030004 / 2 ^ 16 % 256) = true ∧ groupUnreachable (grouped) (group) = false ∧
    openOn (grouped) 4 64 = none ∧ tget 0 ((grouped).die (keyHome 4 64)).usedKeys 24 < keyQuota (grouped) 24 (keyHome 4 64) ∧
    hasLeft (grouped) 0 = true ∧ ((openOn (proposed 50) 4 64).map fun e => e.1) = some 6 ∧ windowEnded (proposed 50) (group) proposal = false ∧
    proposal.ta < timeOf (proposed 50) (keyHome 4 64) ∧ windowEnded (proposed 100) (group) proposal = true ∧
    (proposalOf (proposed 50) 4 3).isSome = true ∧ proposal.member ≠ 1 ∧
    (tfind (proposed 50).replies 7).isSome = true ∧ tfind (group).bound 0 ≠ none ∧
    (tget [] (grouped).inboxes (memberKey 4 0)).length < 64 ∧ (group).part = 24 := by decide +kernel

/-- Claim messages leave in slots 0 and 128 and then arrive at any time; a group across devices, one of which is not to be reached; a group that is gone. -/
theorem witness_claim_messages : claimSlot (grouped) = true ∧ ({ grouped with now := 2 } : State).now / 2 % 128 ≠ 0 ∧
    claimSlot { grouped with now := 256 } = true ∧ hasLeft { grouped with now := 2 } 0 = false ∧
    hasLeft { grouped with now := 2, carried := 1 } 0 = true ∧ (2 : Nat) ^ 31 ≤ 0x80030004 ∧
    ({ part with unreachable := [3] } : State).unreachable.contains (0x80030004 / 2 ^ 16 % 256) = true ∧
    groupUnreachable { grouped with unreachable := [3] } { group with cross := true, members := [1, 3] } = true ∧
    ({ device := 3, group := 4, num := 0, key := 0, value := 0, gone := true } : Remote).gone = true := by decide +kernel

/-! #### The control slot -/

/-- TRAP #n of a warp that goes on, and of one that has ended. -/
theorem witness_BundleEnds : (part).curWarp = some warp ∧ warp.ended = false ∧ ({ warp with ended := true } : Warp).ended = true ∧
    (part { warp with ended := true }).curWarp = some { warp with ended := true } ∧ (3 : Nat) < 2 ^ 16 ∧
    (pdReg (part) 0x1A0 warp.part 0 0).getLsbD 0 = false := ⟨rfl, rfl, rfl, rfl, by decide, by decide +kernel⟩

/-- The three modes of PREP, the last of which is `prep.get`. -/
theorem witness_BranchRegisters : (ctl 4 0).prepMode = 0 ∧ (ctl 4 (1 <<< 27)).prepMode = 1 ∧ 1 < (ctl 4 (2 <<< 27)).prepMode ∧
    isV 4 = true ∧ isV 196 = false := by decide +kernel

/-- Lane 1 waits at join 0, which lane 0 completes with its exit. -/
def joining : Warp :=
  { warp with r := { warp.r with
      groups := [{ mask := 1, pc := 0x1000, wait := .ready, pending := none }, { mask := 2, pc := 0x1200, wait := .join 0, pending := none }],
      j := [(0, { expect := 3, arrived := 2, jpc := 0x1200, valid := true })] } }

theorem witness_Exit : Issuing (part joining) joining ∧ ((part joining).issuer joining).r.active 7 7 = 1 ∧
    ∃ y, ((part joining).past joining).curWarp = some y ∧ (y.r.joinReg 0).valid = true ∧ 1 &&& (y.r.joinReg 0).expect ≠ 0 ∧
      (y.r.joinReg 0).expect &&& ~~~((y.r.joinReg 0).arrived ||| 1) = 0 ∧ (∃ g ∈ y.r.groups, g.wait = .join 0 ∧ g.mask &&& ~~~1 ≠ 0) ∧
      ((part joining).issuer joining).r.group.mask &&& ~~~1 = 0 :=
  ⟨⟨rfl, rfl⟩, by decide +kernel, _, rfl, by decide +kernel, by decide +kernel, by decide +kernel, by decide +kernel, by decide +kernel⟩

theorem witness_Barriers : tfind (part).teams warp.team = some team ∧ ((part).issuer warp).r.active 7 7 ≠ 0 ∧ Issuing (part) warp :=
  ⟨rfl, by decide +kernel, rfl, rfl⟩

/-- A clear flag and one that has left clear; a SLEEP of 0 ns and of 5; a counter address that translates and one that does not. -/
theorem witness_Waits : (∃ y, ((part).past warp).curWarp = some y ∧ y.ended = false) ∧ (warp.flag 1).state = 0 ∧
    (({ warp with f := [(1, { Flag.zero with state := 1 })] } : Warp).flag 1).state ≠ 0 ∧ (ctl 0xF4 5).imm.toNat ≠ 0 ∧
    ((part).past warp).curWarp.isSome = true ∧ (ctl 0xF4 0).imm.toNat = 0 ∧
    (translate (part) 0 warp.who .read 0x100).2 = .ok 0x100 ∧ isWindow 0x100 = false ∧
    (translate (part) 0 warp.who .read (2 ^ 40)).2 = .fault 0 :=
  ⟨⟨_, rfl, rfl⟩, by decide +kernel, by decide +kernel, by decide +kernel, by decide +kernel, by decide +kernel, by decide +kernel,
    by decide +kernel, by decide +kernel⟩

def crowded : State :=
  { part with warps := (0, warp) :: (List.range 5).map fun k => (k + 1, { warp with r := { warp.r with allot := 192 } }) }

/-- GROW to the present allotment, to a greater one, and beyond what the sub-core has. -/
theorem witness_WarpState : (64 : Nat) ≤ ((part).issuer warp).r.allot ∧ ((part).issuer warp).r.allot < 80 ∧
    80 ≤ ((part).issuer warp).r.allot + freeRegs ((part).past warp) (subOf 0) ∧
    (crowded.issuer warp).r.allot + freeRegs (crowded.past warp) (subOf 0) < 80 ∧ (crowded.past warp).curWarp.isSome = true := by decide +kernel

/-- PCTL values that ask for a save and for a restore. -/
theorem witness_SpecialRegisterWrites : (0 : DWord).toNat % 4 = 0 ∧ (1 : DWord).toNat % 4 = 1 ∧ (ctl 192 0x179).imm.toNat = 0x179 := by
  decide +kernel

/-- A warp in precise memory mode, with an open checkpoint and with none. -/
theorem witness_open_checkpoint : ∀ ops ∈ [[opened], []], (((part (held ops)).past (held ops)).curWarp.map fun y => y.precise) = some true ∧
    (((part (held ops)).past (held ops)).curWarp.map fun y => y.checkpoint) = some ops := by decide +kernel

/-- A bundle of a stepped user warp, with a TRAP #3 and without a cause. -/
def stepping (trap : Option Nat) : State :=
  { part { warp with level := .user } with
    issue := { Issue.idle with pc := 0x1000, trap := trap }, sreg := [(sregKey 0x1A0 (pdHolder 24 0), 1 + 2 ^ 33)] }

theorem witness_TrapsAfterTheBundle : ∀ x ∈ (stepping none).curWarp.toList, x.ended = false ∧ steps (stepping none) x = true ∧
    (stepping none).issue.trap = none ∧ steps (stepping (some (0x163 * 2 ^ 16 + 3))) x = true ∧
    (stepping (some (0x163 * 2 ^ 16 + 3))).issue.trap = some (0x163 * 2 ^ 16 + 3) ∧ (stepping none).curWarp = some x ∧
    (x.r.due ≤ (stepping none).issue.t + 1 ∧ writesShut (stepping none) x.part = false) ∧ writesShut { stepping none with ckpt := some 0 } x.part = true := by
  decide +kernel

theorem witness_Regions : ((part).past warp).curWarp.isSome = true ∧ (pdReg (part) 0x1A4 warp.part 0 0).getLsbD 60 = false := by
  decide +kernel

/-- A cluster with a cactus segment; a warp with a record that has a child, and one without a record; a launch record that can be
read. -/
def childPart : State := { cactusPart with l2 := [(0x818, 1)] }
def recordWarp : Warp := { warp with record := some 0x800 }

theorem witness_TasksAndLaunches : forkPlaces (cactusPart.past warp) 0 [64, 64 + 64] = some [0x10000, 0x10040] ∧ warp.record = none ∧
    ownJoin ({ childPart with warps := [(0, recordWarp)] }.past recordWarp) 0 recordWarp ≠ 0 ∧ recordWarp.loop = none ∧
    ({ recordWarp with joining := true } : Warp).joining = true ∧ (mapTeams 0 warp.who 0x800 1 0 (part)).2.isSome = true ∧
    (readRecord 0 warp.who ((part).past warp) 0x800 128).2.isOk = true ∧ launchOk (List.replicate 128 0) = false ∧
    launchesOf (part) 24 < 16 := by decide +kernel

/-- A launch record that passes every check: entry 0x1000, one team of one warp, 16 registers, one lane. -/
def launchBytes : List Byte :=
  natToBytes 8 0x1000 ++ natToBytes 4 1 ++ [1, 16, 0, 0] ++ [3, 5, 8, 12] ++ natToBytes 8 0 ++ List.replicate 36 0 ++ natToBytes 8 1 ++
    List.replicate 56 0

theorem witness_launch_record : launchBytes.length = 128 ∧ launchOk launchBytes = true ∧ recField launchBytes 0x14 1 ≠ 2 ∧
    usesMap launchBytes = false := by decide +kernel

theorem witness_Return : (saveReader ((part).past warp) 0 warp.who 0x4000).2.isSome = true ∧ Issuing (part) warp ∧
    ((part).issuer warp).r.active 7 7 ≠ 0 := ⟨by decide +kernel, ⟨rfl, rfl⟩, by decide +kernel⟩

def cause (n : Nat) : TrapInfo := { cause := n, id := 0, pc := 0x1000, lanes := 3, va := 0x2000, reasons := 0 }
def user : Warp := { warp with level := .user }

/-- A trap of a user warp to a save area that can be written, and one at hypervisor level. -/
theorem witness_TrapEntry : tfind (part user).warps 0 = some user ∧ user.level ≠ .hypervisor ∧
    (writeSave ((part user).sketchEvent 0 1 0x1000 1) 0 { user with r := user.r.settleTrap 0 } 0 (cause 0x80) .user .supervisor).2 = none ∧
    warp.level = .hypervisor ∧ (cause 0x140).cause / 32 = 10 :=
  ⟨rfl, by decide, by decide +kernel, rfl, by decide⟩

/-- A trap of a user warp to a save area of the supervisor's that cannot be written, while the hypervisor's can. -/
def lostArea : State := { part user with sreg := [(sregKey 0x171 (pdHolder 24 0), 2 ^ 40)] }

theorem witness_TrapEntry_fails :
    (writeSave (lostArea.sketchEvent 0 1 0x1000 1) 0 { user with r := user.r.settleTrap 0 } 0 (cause 0x80) .user .supervisor).2.isSome = true ∧
    (writeSave (lostArea.sketchEvent 0 1 0x1000 1) 0 { user with r := user.r.settleTrap 0 } 0 (cause 0x8A) .user .hypervisor).2 = none := by
  decide +kernel

/-- Registers with a result to V9 in flight, a transfer pending and a latch held; a replay record of two lanes. -/
def busyRegs : Regs :=
  { warp.r with
    flight := [{ dest := .v 9, cls := 0, writeAt := 4, visAt := 5, lanes := 3, vals := [(0, 7), (1, 8)], latch := none, latchLanes := 3,
                 latched := false, half := false, seq := 1 }],
    groups := [{ mask := 3, pc := 0x1000, wait := .ready, pending := some { left := 2, lanes := 3, target := [(0, 0x1200), (1, 0x1240)] } }],
    latch := [(0, 5)] }

theorem witness_SaveArea : busyRegs.groups.length ≤ 16 ∧ busyRegs.lastGroup < 16 ∧ busyRegs.rd < 256 ∧
    ((latchRecs busyRegs 2).map fun x => (x.kind, x.wr)) = [(5, 1), (4, 2), (4, 2), (0, 3)] ∧
    (∀ x ∈ latchRecs busyRegs 2, (∀ e ∈ x.vals, e.1 < 64) ∧ (x.vals.map Prod.fst).Nodup ∧ x.kind < 16 ∧ x.cls < 16 ∧ x.dest < 256) ∧
    ∀ q ∈ [({ op := 5, syl := 1, lanes := 3, seq := 2, cause := 0x61, pc := 0x1000, addr := [(0, 0x100), (1, 0x104)], data := [(0, 7)],
              replay := true } : FaultRec)],
      (∀ e ∈ q.addr, e.1 < 64) ∧ (q.addr.map Prod.fst).Nodup ∧ (∀ e ∈ q.data, e.1 < 64) ∧ (q.data.map Prod.fst).Nodup := by decide +kernel

/-! #### The steps of the part -/

/-- A calendar whose slots all belong to partition 3. -/
def closed : State := { part with calendar := List.replicate 256 3 }

def gathering : MemOp := { access .red with pa := [(0, 0x1000), (4, 0x1004)] }

theorem witness_AccessSteps :
    released (flying (access .fence)) (access .fence) = true ∧
    released { part with mops := covered } { access .rfence with scope := 2, cover := [(3, 3)] } = false ∧
    (({ access .load with xlated := 0 } : MemOp).lanes &&& ~~~({ access .load with xlated := 0 } : MemOp).xlated).getLsbD 0 = true ∧
    inheritedCause (flying { access .load with xlated := 0 }) 5 { access .load with xlated := 0 } 0 = none ∧
    (xlateLanePieces 0 (access .load).who .read (({ access .load with xlated := 0 } : MemOp).pieceVa 0) (List.range 1) (part)).2.isOk = true ∧
    (slotOpen (part) 24 = true ∨ needsWalk (part) 0 (access .load).who .read 0x100 = false) ∧ needsWalk (part) 0 (access .load).who .read 0x100 = false ∧
    ({ access .load with watch := 1 } : MemOp).watch ≠ 0 ∧
    ({ access .load with watch := 1 } : MemOp).lanes &&& ~~~({ access .load with watch := 1 } : MemOp).reported ≠ 0 := by decide +kernel

/-- A store whose lanes are performed and reported; a reduction whose home is another die, and a partial result of its place. -/
theorem witness_gathering : slotOpen (flying gathering) (linePart (flying gathering) 32) = true ∧
    slotOpen closed (linePart closed 32) = false ∧ ({ access .store with watch := 1, team := 3, die := 3, sys := 3 } : MemOp).lanes &&&
      ~~~({ access .store with watch := 1, team := 3, die := 3, sys := 3 } : MemOp).reported = 0 ∧
    gatherable (flying gathering) gathering 0 = true ∧ laneReadyAt (flying gathering) 5 gathering 0 (gatherTokens (flying gathering) gathering 0) = true ∧
    tfind gathering.pa 0 = some 0x1000 ∧ wholeAccess (flying gathering) gathering = false ∧ (flying gathering).partialsOf 0 (lineOf 0x1000) = [] ∧
    (({ flying gathering with ucopy := [(copyKey 0 0x1000, { fn := 0, wide := false, value := 3 })] } : State).partialsOf 0 (lineOf 0x1000)).all
      (fun x => copyPlace x.1 == 0x1000 && x.2.fn == gathering.fn && x.2.wide == gathering.wide) = true := by decide +kernel

def fault (c : Nat) : FaultRec :=
  { op := 5, syl := 0, lanes := 1, seq := 0, cause := c, pc := 0x1000, addr := [], data := [], replay := true }
def faulted : Warp := { warp with faults := [fault 0x61, fault 0x80] }

def savedAt : Warp := { faulted with precise := true, checkpoint := [{ seq := 0, pc := 0x1000, regs := warp.r, wrote := [] }] }

/-- A warp whose next bundle is due, and one before it; a notice; two faults, of which that of translation comes first, all accesses
performed; an access still to be performed; a fault in precise memory mode. -/
theorem witness_deferred : warp.r.due ≤ warp.r.wtime ∧ warp.soft = none ∧ warp.checkpoint = [] ∧
    ({ warp with r := { warp.r with due := 5 } } : Warp).r.wtime < 5 ∧
    ({ warp with soft := some (0x163 * 2 ^ 16 + 3, 0x1000, 3) } : Warp).soft ≠ none ∧
    (faultCheckpoint savedAt).isSome = true ∧ faultsReady (part savedAt) 0 savedAt = true ∧ ({ warp with notices := [(0x124, 1)] } : Warp).notices.length = 1 ∧ warp.halted = false ∧
    ((firstFault faulted.faults).map fun q => q.cause) = some 0x61 ∧ faultsReady (part faulted) 0 faulted = true ∧
    (faultCheckpoint faulted).isNone = true ∧ faultsReady (flying (access .load) (part faulted)) 0 faulted = false := by decide +kernel

/-- A step to report with nothing before it. -/
theorem witness_stepped : ∃ w : Warp, w.faults = [] ∧ w.handlers = [] ∧ w.stepped = some 0x1000 ∧ w.ended = false ∧ w.halted = false ∧
    tfind (part w).warps 0 = some w :=
  ⟨{ warp with stepped := some 0x1000 }, rfl, rfl, rfl, rfl, rfl, rfl⟩

def twoGroups (x : Wait) : Warp :=
  { warp with r := { warp.r with groups := [{ mask := 1, pc := 0x1000, wait := x, pending := none },
                                            { mask := 2, pc := 0x2000, wait := .ready, pending := none }] } }

theorem witness_WaitAndErrorSteps : ((1024 : Nat) ≤ ({ warp with passed := 1024 } : Warp).passed) ∧
    (twoGroups (.sleep 100)).r.group.ready = false ∧ (0 < 1 ∧ 1 < (twoGroups (.sleep 100)).r.groups.length) ∧
    ((twoGroups (.sleep 100)).r.groups.getD ((0 + 1) % 2) Group.none).ready = true ∧
    ((twoGroups (.sleep 100)).r.groups.getD 0 Group.none).wait = .sleep 100 ∧ (twoGroups .ready).r.cur < (twoGroups .ready).r.groups.length ∧
    256 ≤ ({ twoGroups .ready with burst := 256 } : Warp).burst ∧
    timeOf (proposed 99) (dieOf 0) < 100 ∧ 100 ≤ timeOf (proposed 100) (dieOf 0) ∧ 100 < timeOf (proposed 101) (dieOf 0) ∧
    deadlinePast (proposed 100) 0 (.timeline (some 100) 0x100 none 5 1) = false ∧
    ((twoGroups (.timeline (some 100) 0x100 none 5 1)).r.groups.getD 0 Group.none).wait = .timeline (some 100) 0x100 none 5 1 ∧
    isWindow 0x100 = false ∧
    laneReady { flying (access .load) with bad := [(2, 2)] } 5 (access .load) 0 = true ∧
    inheritedCause { flying (access .load) with bad := [(2, 2)] } 5 (access .load) 0 = none ∧
    wholeAccess { flying (access .load) with bad := [(2, 2)] } (access .load) = false ∧
    peerRefuses { flying (access .load) with bad := [(2, 2)] } (access .load) 0 0 = none ∧
    poisoned { flying (access .load) with bad := [(2, 2)] } (access .load) 0 = some (2, 2) ∧
    ((access .load).lanes &&& ~~~(access .load).faulted &&& ~~~(access .load).team).getLsbD 0 = true := by decide +kernel

def clustered (c : Cluster) : State := { part with clusters := [(0, c)] }

theorem witness_PowerSteps : (clustered { Cluster.reset with retention := true }).cluster 0 = { Cluster.reset with retention := true } ∧
    ((clustered Cluster.reset).cluster 0).retention = false ∧ ((clustered Cluster.reset).cluster 0).stretch = 0 ∧
    ((clustered { Cluster.reset with stretch := 257 }).cluster 0).stretch = 257 ∧ timeOf State.reset 0 ≤ State.reset.now + 2 ∧
    (SubCore.reset).permits.length = 4 ∧ (SubCore.reset).spent.length = 4 ∧ clusterIdle { part with warps := [], teams := [] } 0 = true ∧
    ({ part with ctxs := [(3, { Context.absent with valid := true, cap := 2, rate := 8, used := [(1, 16)] })] }).context 3 =
      { Context.absent with valid := true, cap := 2, rate := 8, used := [(1, 16)] } ∧
    48 ≤ (if clusterMode (part) 0 < 2 then 64 else if clusterMode (part) 0 = 2 then 48 else 32) ∧
    4096 ≤ ({ Cluster.reset with idle := 4096 } : Cluster).idle ∧ (part).posted = [] ∧ (part).copies = [] ∧
    (({ part with staged := some [] } : State).staged.isSome = true ∧ (part).staged = none) ∧
    ((0x1700 : DWord).toNat / 2 ^ 8 % 2 ^ 5 ≤ 23) := by decide +kernel

/-- A group that waits for a barrier phase when the cycle of its cluster ends: the phase is present, or it has passed. -/
theorem witness_cycle_end : ∀ p ∈ [0, 1], let s : State := { part (groupWaits (.barrier 2 0)) with teams := [(0, { team with bars := [(2, { Barrier.fresh with phase := p })] })] }
    ((s.cluster 0).retention = false ∧ clusterOf 0 = 0 ∧ ((tfind s.teams 0).map fun m => (m.bar 2).phase) = some p) := by decide +kernel

/-! #### Copies: a tensor of one element of 4 bytes at 0x100 -/

def tensorBytes : List Byte :=
  natToBytes 8 0x100 ++ [4, 1] ++ List.replicate 6 0 ++ natToBytes 4 1 ++ List.replicate 12 0 ++ natToBytes 8 4 ++ List.replicate 24 0 ++
    natToBytes 4 1 ++ natToBytes 4 1 ++ natToBytes 4 1 ++ natToBytes 4 1 ++ List.replicate 112 0

def copy (dir : CopyDir) (stage : Nat) (shadow : Table Word) (record : List Byte) : CopyOp :=
  { warp := 0, cluster := 0, team := 0, flag := 1, dir := dir, shadow := shadow, recAddr := 0x800, lanes := 3, index := [], handle := 9,
    level := .hypervisor, ctx := 0, part := 24, stage := stage, record := record, after := [] }
def copying (c : CopyOp) : State :=
  { part with copies := [(5, c)], l2 := (tensorBytes.zipIdx.filter fun e => e.1 ≠ 0).map fun e => (0x800 + e.2, e.1) }

/-- A store whose page was translated at acceptance. -/
def stored : CopyOp := { copy .store 2 [] tensorBytes with pages := [(0, 0)] }

theorem witness_CopySteps : tensorBytes.length = 192 ∧ tensorOk (copy .load 0 [] []) tensorBytes = true ∧
    tensorOk (copy .load 0 [] []) (List.replicate 192 0) = false ∧ storesHome (copying (copy .store 0 [] [])) 5 0 = true ∧
    slotOpen (part) 24 = true ∧ ((part).cluster 0).recs = [] ∧
    (readRecord 0 (copy .load 0 [] []).who (copying (copy .load 0 [] [])) 0x800 192).2 = .ok tensorBytes ∧
    (readRecord 0 (copy .load 0 [] []).who (part) (2 ^ 40) 192).2.isOk = false ∧
    rangeFail (copy .load 0 [] []) (tensorOf tensorBytes) 65536 = none ∧ rangeFail (copy .load 0 [] []) (tensorOf tensorBytes) 0 = some 0 ∧
    (((copying (copy .load 1 [] tensorBytes)).copies.find? fun e => e.2.cluster == 0 && decide (e.2.stage < 2)).map fun e => e.1) = some 5 ∧
    ((copying (copy .load 1 [] tensorBytes)).copies.all fun e => decide (5 ≤ e.1) || !tilesClash e.2 (copy .load 1 [] tensorBytes)) = true ∧
    copyReady (copying (copy .load 2 [] tensorBytes)) 5 (copy .load 2 [] tensorBytes) = true ∧
    copyReady (copying stored) 5 stored = false ∧
    copyReady { copying stored with dir := [(2, { sDies := [], owner := some 5 })] } 5 stored = true ∧
    copyRows (copy .load 2 [(0, 5)] tensorBytes) (tensorOf tensorBytes) = [[(0, none)]] ∧
    copyRows stored (tensorOf tensorBytes) = [[(0, some 0x100)]] ∧ copyLines stored = [2] ∧
    stored.place (copying stored) 0x100 = .ok 0x100 ∧ isWindow 0x100 = false ∧
    bucketPays (copying stored) 0 (portOf 0 0x100) 1 = true ∧ stored.moved = 0 ∧ (part).bad = [] ∧ (part).ucopy = [] ∧
    (findHandle (copying (copy .load 2 [] tensorBytes)) 0 9).isSome = true := by decide +kernel

/-! #### Teams and tasks: partition 0 owns clusters 0, 1 and 80 -/

def launch (r : List Byte := launchBytes) : Launch := launchOf r 0 0 1
def owned (s : State := part) : State := { s with parts := [(0, { Partition.absent with valid := true, clusters := [3, 1, 0, 0] })] }
def undealt : State := { owned with launches := [(1, launch)], dies := [(0, { Die.reset with undealt := [(1, 0, false)] })] }

theorem witness_dealing : (((dealerHeads undealt 0).filter fun e => slotOpen undealt e.2.1.part).findSome? fun e =>
      (teamCluster undealt e.2.1 0).map fun p => (e.1, e.2.2.1, p)) = some (1, 0, 0, [1]) ∧ [1].Nodup ∧ (launch).kind ≠ 2 ∧ ownStart undealt 0 = false ∧ ownStart undealt 80 = false ∧
    ((List.range 24).findSome? fun p => if !slotOpen undealt p || (dealerHeads undealt 1).any fun e => e.2.1.part == p then none
      else (stealTeam undealt 1 p).bind fun e => (teamCluster undealt e.2.1 1).map fun q => (e.1, e.2.2, q)) =
      some (1, (0, 0), 80, [5120]) := by decide +kernel

def kittyPart0 : State :=
  owned { part with clusters := [(0, { Cluster.reset with tlb := [(0, 0, 30, 0x70F, 4)], kitty := [recKey 0 0x800] })],
                    l2 := [(0x820, 16)] }
/-- The same with the memory that the record lies in granted to the partition. -/
def granted : State := { kittyPart0 with parts := [(0, { Partition.absent with valid := true, clusters := [3, 1, 0, 0], ranges := [(0, 2 ^ 30)] })] }

theorem witness_tasks : dealerServes granted 1 = false ∧ slotOpen granted 0 = true ∧ clusterPart granted 0 = 0 ∧ ((recordAt granted 0 0 (recKey 0 0x800)).2.bind fun r => taskPlace granted 0 0 r) = some 1 ∧
    (granted.cluster 0).kitty = [recKey 0 0x800] ∧ ownStart granted 1 = false ∧ (granted.cluster 0).retention = false ∧ clusterPart granted 1 ≠ Config.hvPartition ∧
    (([0, 1, 2, 3].map fun k => (1 / 80 + k) % 4).findSome? fun d => (fullestKitty granted (clusterPart granted 1) d 1).bind fun v =>
      (stealable granted (clusterPart granted 1) 0 v).bind fun e => (taskPlace granted 1 (clusterPart granted 1) e.2).map fun g => (v, e.1, g)) =
      some (0, recKey 0 0x800, 64) := by decide +kernel

theorem witness_ends : ({ warp with ended := true } : Warp).ended = true ∧ endWaits (part { warp with ended := true }) 0 { warp with ended := true } = false ∧
    endWaits (flying (access .load)) 0 warp = true ∧ ({ team with live := [] } : Team).live = [] ∧ team.open_ = 0 ∧ team.parked = false ∧
    team.tasks = 0 ∧ team.live ≠ [] ∧ slotOpen (part) team.part = true := by decide +kernel

/-- A stage slot, closed by a stop word that is not 0, and open with a table that can be read. -/
def stageTeam (cleared : Lanes) : Team := { team with launch := 1, live := [], open_ := 1, cleared := cleared }
def staged (cleared : Lanes) : State :=
  { cactusPart with warps := [], teams := [(0, stageTeam cleared)], launches := [(1, { launch with part := 24, kind := 2, trip := 1, epi := 0x900, body := 0xA00 })],
                    l2 := [(0x900, 1)] }

theorem witness_stage : tfind (stageTeam 0).place 0 = some 0 ∧ (tfind (staged 0).warps 0).isNone = true ∧ (stageTeam 0).open_.getLsbD 0 = true ∧
    (stageTeam 0).cleared.getLsbD 0 = false ∧ (readField (staged 0) 0 { ctx := 0, part := 24, level := .supervisor } 0x900 4).2 ≠ 0 ∧
    (stageTeam 1).cleared.getLsbD 0 = true ∧
    (stageEntry (staged 1) 0 { ctx := 0, part := 24, level := .supervisor } 0xA00 (tget 0 (stageTeam 1).bind 0)).2.isSome = true ∧
    (cactusFit (staged 1) 0 64).isSome = true ∧ slotOpen (staged 1) 24 = true ∧ (tfind (staged 1).preempts 0).isNone = true := by decide +kernel

/-! #### Pre-emption -/

def saving (saved : Bool) : Preempt := { cluster := 0, saved := saved, warps := [], psave := 0, die := 0, part := 24, ctx := 0 }
def stoppedPart : State := { part { warp with stop := true } with preempts := [(0, saving false)] }
def savedPart : State :=
  { part with teams := [(0, team), (7, { team with parked := true, live := [], place := [], cluster := 319 })], preempts := [(7, saving true)],
              l2 := [(0, 1)] }

theorem witness_PreemptionSteps : pctlSlot 0 = 0 ∧ pstatBusy (part) 24 0 = false ∧ pstatBusy ((part).setPstat 24 0 1 0) 24 0 = true ∧
    (tfind (part).preempts 0).isNone = true ∧ (teamQuiet stoppedPart 0 = true ∧ (teamWarps stoppedPart 0).length = 1) ∧
    pctlCluster (BitVec.ofNat 64 (79 * 4 + 3 * 512)) = 319 ∧ (BitVec.ofNat 64 (79 * 4 + 3 * 512)).toNat / 2 ^ 2 % 2 ^ 7 < 80 := by decide +kernel

theorem witness_pre_emption_area : writesShut (part) 24 = false ∧ writesShut closed 24 = true ∧ savedPart.owed = [] ∧
    (let s := { part with owed := [.pctlRestore 0 1] }
     s.owed.contains (.pctlRestore 0 1) = true ∧ (s.owed.erase (.pctlRestore 0 1)).contains (.pctlRestore 0 1) = false) ∧
    (writeVa 0 { ctx := 0, part := 24, level := .supervisor } stoppedPart 0 0x5C4000 []).2 = none ∧
    (writeVa 0 { ctx := 0, part := 24, level := .supervisor } stoppedPart (2 ^ 40) 0x5C4000 []).2 ≠ none ∧
    (match (areaReader 0x5C4000 savedPart 0 warp.who 0).2 with
     | none => false
     | some rd => rd 0 4 == 1 && ((List.range 64).all fun i => !(rd 0x20 8).testBit i || blockCheck fun off n => rd (blockBase i + off) n) && match savedTeam savedPart rd 24 0 true with
       | none => false
       | some (tid, _, x) => tid == 7 && (restorePlaces savedPart rd 7 319 x).isOk) = true := by decide +kernel

/-! #### Peers, the host, the hypervisor -/

def posted (sent : Bool) : Posted :=
  { warp := some 0, cluster := 0, ctx := 0, part := 24, copy := none, consumed := false, op := 5, lanes := 1, window := 0, offset := 0, bytes := [(0, 1)], sent := sent }

/-- A copy owns the line of address 0x100. -/
def ownedLine : State := { part with dir := [(2, { sDies := [], owner := some 5 })] }

/-- Requests: no memory; a write that waits, and one behind it; the staging area, BAR0 and the aperture after boot, with its ends. -/
theorem witness_PeerSteps : outstanding { part with posted := [(6, posted false)] } 0 < 64 ∧
    slotOpen (part) 24 = true ∧ bucketPays (part) 0 0 (posted false).units = true ∧ (posted true).sent = true ∧
    olderWrite { part with posted := [(6, posted true)] } 6 (posted true) (fun q => !q.sent) = false ∧
    olderWrite { part with posted := [(6, posted true)] } 6 (posted true) (fun _ => true) = false ∧
    olderWrite { part with posted := [(5, posted true), (6, posted true)] } 6 (posted true) (fun _ => true) = true ∧ (part).requests = [] ∧
    inboundKeys (2 ^ 50) 1 = none ∧ inboundKeys 0x100 8 = some [0x100, 0x101, 0x102, 0x103, 0x104, 0x105, 0x106, 0x107] ∧
    inboundWaits (part) [0x100] = false ∧ inboundWaits ownedLine [0x100] = true ∧ (part).ucopy = [] ∧ (part).bstate ≠ 5 ∧
    (ownedLine.takeRequest (.hostWrite 0x100 [1])).isNone = true ∧ (Request.hostWrite 0x100 [1]).ofHost = true ∧
    overdue { part with now := 1000000 } (posted true) = false ∧ overdue { part with now := 1000001 } (posted true) = true ∧
    2 ^ 60 ≤ 2 ^ 60 + 2 ^ 26 - 8 ∧ 2 ^ 60 + 2 ^ 26 - 8 - 2 ^ 60 + 8 ≤ 2 ^ 26 ∧ 2 ^ 61 ≤ 2 ^ 61 ∧ ({ part with bstate := 5 } : State).bstate = 5 ∧
    (inboundKeys (({ part with bstate := 5, bar2 := 0x100000 } : State).bar2 + (2 ^ 60 + 8 - 2 ^ 60)) 8).isSome = true ∧
    ¬ 2 ^ 60 + 2 ^ 36 - 4 - 2 ^ 60 + 8 ≤ 2 ^ 36 := by decide +kernel

theorem witness_HypervisorSteps : (paKey (0x100000 : DWord).toNat).isSome = true ∧ (part).ckpt = none ∧
    ((List.range 320).all fun cl => cl == Config.hvCluster || clusterIdle State.reset cl) = true ∧
    ((List.range 320).all fun cl => cl == Config.hvCluster || clusterIdle (part) cl) = false ∧ (2 : Nat) ≠ 1 := by decide +kernel

/-- A part with the hypervisor's address space and a block at address 0 without a calendar, which is refused. -/
def blocked : State := { part with clusters := [(319, { Cluster.reset with tlb := [(256, 0, 30, 0x70F, 4)] })] }
def blockRead : List Byte := ((readRecord Config.hvCluster hvWho blocked 0 0x3100).2.toOption).getD []

theorem witness_block : (readRecord Config.hvCluster hvWho blocked 0 0x3100).2.isOk = true ∧ blockReason blocked blockRead = some 2 := by
  decide +kernel

theorem witness_sketch : writesShut (part) 24 = false ∧ traces (part) 24 = false ∧
    traces { closed with sreg := [(sregKey 0x1A4 (pdHolder 24 0), 2 ^ 60)] } 24 = true ∧ (writeVa 0 warp.who (part) 0x8000 32768 (sketchImage (part) 0)).2 = none := by decide +kernel

/-! #### An image that boots: no body, version 1, the prime modulus 2^4095 + 579, and its signature with an empty salt of zeros -/

def imageSignature : Nat := 0x747D7A710C37E8A96060508E0F6078F31B2EB4A76420E7B8F9314257A11C4EEC9828B6063467F60631A83412008584A1233686C2397534115B9A9D68E2B8F98AB97D5E2EF50148A8A51DA30A7F4B3B024C35844EA85854BF31F6074A5D6F45C9264BD8B7DCD79B47BF84CFF2861C1CE639F814000E72982F8AA484B0EF15EFE7B540CE8A0318920E04F2D0CF1A5B30BFD9C068F132176D381288285DE03AB486D04B348968670850127A9BCE4712A937130F5ECED6D444DDE99BAE006CB5666A065C394B6D6F69D88F975302E0E5C5E50BC33E6990A65F0ACF2F7180E19B6AD3484B42511F7E7E366AB2565DACB1E15C3723E12B83823E533D0E3519CE03EF51B99FA6BB34FBE601819388EEEDDF53373EC1AFA6112769E3C99D6F476FF832484D9EE21012BB5A6C1342A2C23E56626710F02DBA7D7089F24B0A8C081840AD330338F8C5D119441C7B469A38D4E4C707FBBB2B38E514EC90D5F971686D63FE9A2CB75180484CA0A3096F8480D64C9D5BD57972A2962992A142FC28B35D3E1BFF591F291DFE328AA702CE98FA8FA445A9A1AE4F7AD0265B2FED3687384673C935AC59EFD49830A02E18D3A6011044FF095CACBCFA44C25E6F50CF98962E950BC1659C5F30B2145DF1C66A0A39EB834C152421D9CF841A01EE38C567460BFAC3B038CE4DEC0BCD17A085D1BA4EBC5B17A2B8787263578490BBD5FC08FCC65E81D9

def signedImage : Memory :=
  [(0, 0x5A), (1, 0x48), (2, 0x56), (3, 0x31), (4, 1), (0x20, 0x80), (0x21E, 0x02), (0x21F, 0x43)] ++
    ((bigBytes 512 imageSignature).zipIdx.filter fun e => e.1 ≠ 0).map fun e => (0x220 + e.2, e.1)

def fused : State :=
  { State.reset with flashA := signedImage, fuseKey := bigBytes 64 0x997387fe794566a27c2c2fecad61b0e26a0a308038fe16bc43aa42223d68351c1c0ae99ecb52ad7700d568ab8766144e26d5a04013fe12a1a239302bc47c7331 }

theorem witness_image : imageError fused signedImage = 0 ∧ imageError fused [] = 1 := by decide +kernel

/-! #### The step -/

/-- A part where VADD V9, %lane, #5 stands at the next address. -/
def placed : State := State.reset.withFetchWord 256 0x017709F5F9000500
def placedWarp : Warp := (tfind placed.warps 20416).getD warp
def fetched : State × Fetched :=
  { placed with cur := 20416, issue := { Issue.idle with pc := placedWarp.r.group.pc, t := placedWarp.r.wtime } }.nextBundle 20416 placedWarp
def nopSyl : Syl := { g1 := 0, g2 := 0, d := 0, a := 0, b := 0, c := 0, e := 0, xa := false, xb := false, xc := false, m := 0, h := 0 }
def nopCtl : Ctl := { g1 := 0, g2 := 0, gap := 0, land := false, yield := false, a := 0, imm := 0 }
def bundle : Bundle := { v := .vadd (syl 9 0xF5 0xF9 0 5), m := .mnop nopSyl, e := .enop nopSyl, c := .nop nopCtl }
def issued : State :=
  { fetched.1 with issue := { issueOf placedWarp.r.group.pc 0x017709F5F9000500 placedWarp.r.wtime with peer := fetched.1.free } }
def placedAt : Warp := placedWarp.at placedWarp.r.wtime

theorem witness_decoded : decodeBundle 0x017709F5F9000500 = .ok bundle := rfl

theorem witness_StepRunsDecoded : placed.agenda = [] ∧ placed.warps.map (·.1) = [20416] ∧ (tfind placed.warps 20416).isSome = true ∧
    clusterRuns placed (clusterOf 20416) = true ∧ subOpen placed (subOf 20416) = true ∧ placedWarp.ended = false ∧
    placedWarp.halted = false ∧ placedWarp.soft.isNone = true ∧ placedWarp.faults.isEmpty = true ∧ placedWarp.noticed = false ∧ stopped placedWarp = false ∧
    placedWarp.r.group.ready = true ∧ placedWarp.burst < 256 ∧ placedWarp.missed = false ∧
    (match fetched.2 with
     | .hit bits => bits == 0x017709F5F9000500
     | _ => false) = true ∧ codeBad fetched.1 20416 placedWarp = false ∧ placedWarp.r.due ≤ placedWarp.r.wtime ∧
    (bundleHeld issued 20416 placedAt bundle).isNone = true ∧ (slotDelay placedAt bundle).isNone = true ∧
    firstRaise (earlyRaises issued placedAt (issueCause issued placedAt 0x017709F5F9000500) (bundleList bundle)) = none ∧
    sourceEmpty placedAt (bundleList bundle) = false ∧
    firstRaise ((bundleList bundle).flatMap (otherRaises issued placedAt) ++ entryRaises issued placedAt) = none ∧
    (badRegister issued 20416 placedAt bundle).isNone = true ∧ (earlyAccess issued placedAt bundle).isNone = true := by decide +kernel

/-- In precise memory mode an LDG beside an EXIT is performed with its bundle, beside a NOP it is not. -/
theorem test_at_once : atOnce (held []) { bundle with m := .ldg (syl 40 0xC0 0xF4 0 0 4), c := .exit (ctl 0 0) } = true ∧
    atOnce (held []) { bundle with m := .ldg (syl 40 0xC0 0xF4 0 0 4) } = false := by decide +kernel

theorem witness_InvStep : State.Inv State.reset ∧ ∃ t, step State.reset = .next t := ⟨rfl, _, rfl⟩

end Sys2Proof.Tests
end

section
/-! SUPPORT. Votes and predicate logic of the vector slot (R126, R127): counts of active lanes, the conditions of VOTE
and its static reasons, the truth table of VPLOG. -/

namespace Sys2Proof.Machine

/-- An intersection counts the lanes of the one mask that the other holds. -/
theorem laneCount_and (m p : Lanes) : laneCount (m &&& p) = ((laneList m).filter fun l => p.getLsbD l).length := by
  unfold laneCount laneList
  rw [List.filter_filter]
  refine congrArg List.length <| List.filter_congr fun l _ => ?_
  rw [BitVec.getLsbD_and, Bool.and_comm]

/-- The conditions of VOTE, by their code in M. -/
theorem voteCond_iff (m t c n : Nat) : voteCond m t c n = true ↔
    match m with
    | 0 => t ≤ c
    | 1 => c < t
    | 2 => c = n
    | 3 => c = 0
    | 4 => n < 2 * c
    | 5 => c = 0 ∨ c = n
    | _ => c % 2 = 1 :=
  match m with
  | 0 | 1 | 4 => decide_eq_true_iff
  | 2 | 3 | _ + 6 => beq_iff_eq
  | 5 => (Bool.or_eq_true _ _).to_iff.trans (or_congr beq_iff_eq beq_iff_eq)

/-- The bit that VPLOG reads has the three predicates as the digits of its number. -/
theorem plogBit_eq (e : BitVec 8) (a b c : Bool) :
    plogBit e a b c = e.getLsbD (4 * (if a then 1 else 0) + 2 * (if b then 1 else 0) + (if c then 1 else 0)) := by
  unfold plogBit
  cases a <;> cases b <;> cases c <;> rfl

@[simp] theorem mem_reasonIf (n k : Nat) (b : Bool) : k ∈ reasonIf n b ↔ b = true ∧ k = n := by
  cases b <;> simp [reasonIf]

/-- A reserved value of M is reason 4 (R55). -/
theorem reservedM_mem_sylReasons (slot : Slot) (h : Shape) (f : Syl) (hm : h.mOk = false) : 4 ∈ sylReasons slot h f := by
  simp [sylReasons, hm]

/-- A reserved value of E as a modifier is reason 4 (R55). -/
theorem reservedE_mem_sylReasons (slot : Slot) (h : Shape) (f : Syl) (he : h.e = .modifier false) :
    4 ∈ sylReasons slot h f := by
  have h4 : 4 ∈ eReasons h f := by simp [eReasons, he]
  simp [sylReasons, h4]

/-- Condition 7 of VOTE is reserved. -/
theorem reservedCondition_mem_staticReasons_vote (f : Syl) (hm : f.m.toNat = 7) : 4 ∈ staticReasons (.vote f) :=
  reservedM_mem_sylReasons .vector _ f (decide_eq_false (by omega))

/-- VOTE refuses any E beside a condition that takes no threshold, and a threshold above 64. -/
theorem reservedThreshold_mem_staticReasons_vote (f : Syl) (he : (2 ≤ f.m.toNat ∧ f.e ≠ 0) ∨ 64 < f.e.toNat) :
    4 ∈ staticReasons (.vote f) := by
  refine reservedE_mem_sylReasons .vector _ f (congrArg EUse.modifier ?_)
  split
  · exact decide_eq_false (by omega)
  · exact beq_eq_false_iff_ne.2 fun h0 => by simp [h0] at he

/-- VOTE tests the numbers of active lanes and of those that hold Pa. -/
theorem exec_vote (f : Syl) (s : State) : exec (.vote f) s = predOp (.vote f) f 0 (fun w _ _ =>
    voteCond f.m.toNat f.e.toNat (laneCount (w.r.active f.g1 f.g2 &&& w.r.readP f.a.toNat))
      (laneCount (w.r.active f.g1 f.g2))) s := rfl

/-- VPLOG looks up the three predicates of the lane. -/
theorem exec_vplog (f : Syl) (s : State) : exec (.vplog f) s = predOp (.vplog f) f 0 (fun w _ l =>
    plogBit f.e ((w.r.readP f.a.toNat).getLsbD l) ((w.r.readP f.b.toNat).getLsbD l) ((w.r.readP f.c.toNat).getLsbD l)) s := rfl

/-- Settles O13: VOTE tests the numbers of active lanes and of those that hold Pa; each reserved form is a reserved M or E. -/
theorem vote : Obligations.Vote := by
  refine ⟨fun f _ => predOp_writes (.vote f) f 0 _ _ (exec_vote f) fun _ x _ _ => ?_, fun f h => ?_⟩
  · rw [laneCount_and]
    exact voteCond_iff ..
  · rcases h with hm | he
    · exact reservedCondition_mem_staticReasons_vote f hm
    · exact reservedThreshold_mem_staticReasons_vote f he

/-- Settles O14: the lookup of VPLOG is the bit of E at the number that the three predicates of the lane spell. -/
theorem predicateTable : Obligations.PredicateTable := fun f =>
  predOp_writes (.vplog f) f 0 _ _ (exec_vplog f) fun _ _ _ _ => by
    rw [plogBit_eq]

end Sys2Proof.Machine
end
